-- ==== Sys2Proof/Word.lean ====
section
/-! DEFINITION. The widths of the SOLIDAC core's words and registers (R6, R42): every register is an unsigned bit
pattern of a fixed width (R11), so each is a `BitVec`. -/

namespace Sys2Proof

/-- An order word or a store cell: 20 bits (R6, R90). -/
abbrev Word := BitVec 20

/-- An 11-bit quantity: the counter, a B-register, the n field of an order, an effective address, a pending
modifier (R6). -/
abbrev Addr := BitVec 11

/-- The 3-bit register index of an order (R90). -/
abbrev BIndex := BitVec 3

/-- The 6-bit function code of an order (R90). -/
abbrev FCode := BitVec 6

/-- A 21-bit register. In M, D and S bit 20 is the overflow digit and bit 19 the sign digit (R23, R26, R27). C and
V have the same width (R28, R29). -/
abbrev OdWord := BitVec 21

/-- The low half L of the accumulator: 19 bits, no sign of its own (R24). -/
abbrev Low := BitVec 19

/-- The 40-bit accumulator A = M ++ L (R25). -/
abbrev Acc := BitVec 40

/-- A code of the paper tape: 5 bits (R155). -/
abbrev TapeCode := BitVec 5

end Sys2Proof
end

