-- ==== Sys2Proof/Syntax.lean ====
section
/-! DEFINITION. The orders of the SOLIDAC core: one constructor for each of the 64 function codes (R95, R96), each
with its b field and its n field, the unused ones included (R97, U4), and the written form (f, b, n) of R99. -/

namespace Sys2Proof

/-- An order as decoded: the function code picks the constructor, `b` is the register index and `n` the address or
immediate (R90, R95). -/
inductive Instr where
  /-- 0, STOP: stop check on b, n and OPTSTOP (R170). -/
  | stop (b : BIndex) (n : Addr)
  /-- 1, STB: MAIN[n] <- B[b] (R141). -/
  | stb (b : BIndex) (n : Addr)
  /-- 2, LDB: B[b] <- MAIN[n] (R142). -/
  | ldb (b : BIndex) (n : Addr)
  /-- 3, ADB: B[b] <- B[b] + MAIN[n] (R143). -/
  | adb (b : BIndex) (n : Addr)
  /-- 4, SBB: B[b] <- B[b] - MAIN[n] (R144). -/
  | sbb (b : BIndex) (n : Addr)
  /-- 5, LIB: B[b] <- n (R145). -/
  | lib (b : BIndex) (n : Addr)
  /-- 6, AIB: B[b] <- B[b] + n (R146). -/
  | aib (b : BIndex) (n : Addr)
  /-- 7, SIB: B[b] <- B[b] - n (R147). -/
  | sib (b : BIndex) (n : Addr)
  /-- 8, ANB: B[b] <- B[b] and MAIN[n] (R148). -/
  | anb (b : BIndex) (n : Addr)
  /-- 9, XCB: exchange MAIN[n] and B[b] (R149). -/
  | xcb (b : BIndex) (n : Addr)
  /-- 10, RDT: tape code to B[b] and MAIN[n] (R150). -/
  | rdt (b : BIndex) (n : Addr)
  /-- 11, UNDEF11: no order, stops the machine with Absolute (R183). -/
  | undef11 (b : BIndex) (n : Addr)
  /-- 12, JBP: jump to n if B[b] > 0 (R151). -/
  | jbp (b : BIndex) (n : Addr)
  /-- 13, JBN: jump to n if B[b] != 0 (R152). -/
  | jbn (b : BIndex) (n : Addr)
  /-- 14, DJ1: B[b] <- B[b] - 1, jump to n if != 0 (R153). -/
  | dj1 (b : BIndex) (n : Addr)
  /-- 15, DJ2: B[b] <- B[b] - 2, jump to n if != 0 (R154). -/
  | dj2 (b : BIndex) (n : Addr)
  /-- 16, MDA: PM <- EA (R171). -/
  | mda (b : BIndex) (n : Addr)
  /-- 17, MDS: PM <- MAIN[EA][10:0] (R172). -/
  | mds (b : BIndex) (n : Addr)
  /-- 18, UNDEF18: no order, stops the machine with Absolute (R183). -/
  | undef18 (b : BIndex) (n : Addr)
  /-- 19, UNDEF19: no order, stops the machine with Absolute (R183). -/
  | undef19 (b : BIndex) (n : Addr)
  /-- 20, OUT: emit MAIN[EA] to the output hook (R173). -/
  | out (b : BIndex) (n : Addr)
  /-- 21, JAN: jump to EA if the accumulator is < 0 (R174). -/
  | jan (b : BIndex) (n : Addr)
  /-- 22, JAP: jump to EA if the accumulator is > 0 (R175). -/
  | jap (b : BIndex) (n : Addr)
  /-- 23, JAZ: jump to EA if the accumulator is != 0 (R176). -/
  | jaz (b : BIndex) (n : Addr)
  /-- 24, JUF: jump to EA if the previous order underflowed (R177). -/
  | juf (b : BIndex) (n : Addr)
  /-- 25, JOF: jump to EA if the previous order overflowed (R178). -/
  | jof (b : BIndex) (n : Addr)
  /-- 26, JMP: jump to EA (R179). -/
  | jmp (b : BIndex) (n : Addr)
  /-- 27, JSW: jump to EA and toggle SEL (R180). -/
  | jsw (b : BIndex) (n : Addr)
  /-- 28, CON: peripheral connect, channel EA[0] (R181). -/
  | con (b : BIndex) (n : Addr)
  /-- 29, DIS: peripheral disconnect, channel EA[0] (R182). -/
  | dis (b : BIndex) (n : Addr)
  /-- 30, UNDEF30: no order, stops the machine with Absolute (R183). -/
  | undef30 (b : BIndex) (n : Addr)
  /-- 31, STL: MAIN[EA] <- L (R201). -/
  | stl (b : BIndex) (n : Addr)
  /-- 32, LDA: A <- sign-extended MAIN[EA] (R202). -/
  | lda (b : BIndex) (n : Addr)
  /-- 33, ADA: A <- A + MAIN[EA], overflow detect (R203). -/
  | ada (b : BIndex) (n : Addr)
  /-- 34, SBA: A <- A - MAIN[EA], underflow detect (R204). -/
  | sba (b : BIndex) (n : Addr)
  /-- 35, UNDEF35: no order, stops the machine with Absolute (R183). -/
  | undef35 (b : BIndex) (n : Addr)
  /-- 36, ASL: arithmetic shift left by signed n (R226). -/
  | asl (b : BIndex) (n : Addr)
  /-- 37, ASR: arithmetic shift right by signed n (R227). -/
  | asr (b : BIndex) (n : Addr)
  /-- 38, LSL: logical shift left by signed n (R228). -/
  | lsl (b : BIndex) (n : Addr)
  /-- 39, LSR: logical shift right by signed n (R229). -/
  | lsr (b : BIndex) (n : Addr)
  /-- 40, LMC: read MAIN[EA], then clear M and L (R251). -/
  | lmc (b : BIndex) (n : Addr)
  /-- 41, LMN: M <- MAIN[EA], no clear (R252). -/
  | lmn (b : BIndex) (n : Addr)
  /-- 42, LDM: M <- MAIN[EA] (R253). -/
  | ldm (b : BIndex) (n : Addr)
  /-- 43, ADM: M <- M + MAIN[EA] (R254). -/
  | adm (b : BIndex) (n : Addr)
  /-- 44, SBM: M <- M - MAIN[EA] (R255). -/
  | sbm (b : BIndex) (n : Addr)
  /-- 45, ASM: MAIN[EA] <- MAIN[EA] + M (R256). -/
  | asm (b : BIndex) (n : Addr)
  /-- 46, SSM: MAIN[EA] <- MAIN[EA] - M (R257). -/
  | ssm (b : BIndex) (n : Addr)
  /-- 47, XRM: M <- M xor MAIN[EA] (R258). -/
  | xrm (b : BIndex) (n : Addr)
  /-- 48, ANM: M <- M and MAIN[EA] (R259). -/
  | anm (b : BIndex) (n : Addr)
  /-- 49, XCM: exchange M and MAIN[EA] (R260). -/
  | xcm (b : BIndex) (n : Addr)
  /-- 50, UNDEF50: no order, stops the machine with Absolute (R183). -/
  | undef50 (b : BIndex) (n : Addr)
  /-- 51, STD: MAIN[EA] <- D (R280). -/
  | std (b : BIndex) (n : Addr)
  /-- 52, LDD: D <- MAIN[EA] (R281). -/
  | ldd (b : BIndex) (n : Addr)
  /-- 53, ADD: D <- D + MAIN[EA] (R282). -/
  | add (b : BIndex) (n : Addr)
  /-- 54, SBD: D <- D - MAIN[EA] (R283). -/
  | sbd (b : BIndex) (n : Addr)
  /-- 55, LID: D <- n (R284). -/
  | lid (b : BIndex) (n : Addr)
  /-- 56, MUL: A <- MAIN[EA] * D (R285). -/
  | mul (b : BIndex) (n : Addr)
  /-- 57, UNDEF57: no order, stops the machine with Absolute (R183). -/
  | undef57 (b : BIndex) (n : Addr)
  /-- 58, UNDEF58: no order, stops the machine with Absolute (R183). -/
  | undef58 (b : BIndex) (n : Addr)
  /-- 59, XMD: exchange M and D (R286). -/
  | xmd (b : BIndex) (n : Addr)
  /-- 60, LDV: V <- MAIN[EA] (R287). -/
  | ldv (b : BIndex) (n : Addr)
  /-- 61, UNDEF61: no order, stops the machine with Absolute (R183). -/
  | undef61 (b : BIndex) (n : Addr)
  /-- 62, UNDEF62: no order, stops the machine with Absolute (R183). -/
  | undef62 (b : BIndex) (n : Addr)
  /-- 63, UNDEF63: no order, stops the machine with Absolute (R183). -/
  | undef63 (b : BIndex) (n : Addr)
  deriving DecidableEq, Repr

/-- An order in the spec's written form: the triple (f, b, n) of decimal numbers (R19, R99). Not every triple of
numbers is an order: see `Order.wf`. -/
structure Order where
  /-- The function code. -/
  f : Nat
  /-- The register index. -/
  b : Nat
  /-- The address or immediate. -/
  n : Nat
  deriving DecidableEq, Repr

end Sys2Proof
end

