-- ==== Sys2Proof/WellFormed.lean ====
section
/-! DEFINITION. Which written triples (f, b, n) are orders (R92). A decoded `Instr` needs no check of its own: the
widths of its fields are those of R90 by type, and an order may hold any value in a field it does not use (R97). -/

namespace Sys2Proof

/-- The function code is one of 0 to 63 (R92). -/
def Order.codeInRange (o : Order) : Bool := decide (o.f ≤ 63)

/-- The register index is one of 0 to 7 (R92). -/
def Order.indexInRange (o : Order) : Bool := decide (o.b ≤ 7)

/-- The address or immediate is one of 0 to 2047 (R92). -/
def Order.addressInRange (o : Order) : Bool := decide (o.n ≤ 2047)

/-- A triple that packs to a 20-bit order word (R92). -/
def Order.wf (o : Order) : Bool := o.codeInRange && o.indexInRange && o.addressInRange

end Sys2Proof
end

