-- ==== Sys2Proof/Decode.lean ====
section
/-! DEFINITION. The order decoder and its inverse (R90, R91, R92): pure bit extraction, total on 20-bit words, and
the packing `f * 2^14 + b * 2^11 + n`. -/

namespace Sys2Proof

/-- The function code of an order word, bits 19:14 (R90). -/
def fieldF (w : Word) : FCode := w.extractLsb' 14 6

/-- The register index of an order word, bits 13:11 (R90). -/
def fieldB (w : Word) : BIndex := w.extractLsb' 11 3

/-- The address or immediate of an order word, bits 10:0 (R90). -/
def fieldN (w : Word) : Addr := w.extractLsb' 0 11

/-- The orders of function codes 0 to 7 (R95). -/
def orders0 : List (BIndex → Addr → Instr) :=
  [.stop, .stb, .ldb, .adb, .sbb, .lib, .aib, .sib]

/-- The orders of function codes 8 to 15 (R95). -/
def orders8 : List (BIndex → Addr → Instr) :=
  [.anb, .xcb, .rdt, .undef11, .jbp, .jbn, .dj1, .dj2]

/-- The orders of function codes 16 to 23 (R95). -/
def orders16 : List (BIndex → Addr → Instr) :=
  [.mda, .mds, .undef18, .undef19, .out, .jan, .jap, .jaz]

/-- The orders of function codes 24 to 31 (R95). -/
def orders24 : List (BIndex → Addr → Instr) :=
  [.juf, .jof, .jmp, .jsw, .con, .dis, .undef30, .stl]

/-- The orders of function codes 32 to 39 (R95). -/
def orders32 : List (BIndex → Addr → Instr) :=
  [.lda, .ada, .sba, .undef35, .asl, .asr, .lsl, .lsr]

/-- The orders of function codes 40 to 47 (R95). -/
def orders40 : List (BIndex → Addr → Instr) :=
  [.lmc, .lmn, .ldm, .adm, .sbm, .asm, .ssm, .xrm]

/-- The orders of function codes 48 to 55 (R95). -/
def orders48 : List (BIndex → Addr → Instr) :=
  [.anm, .xcm, .undef50, .std, .ldd, .add, .sbd, .lid]

/-- The orders of function codes 56 to 63 (R95). -/
def orders56 : List (BIndex → Addr → Instr) :=
  [.mul, .undef57, .undef58, .xmd, .ldv, .undef61, .undef62, .undef63]

/-- The function-code map of R95, one entry for each code from 0 to 63, in order. -/
def orderTable : List (BIndex → Addr → Instr) :=
  orders0 ++ orders8 ++ orders16 ++ orders24 ++ orders32 ++ orders40 ++ orders48 ++ orders56

/-- The order of function code `f` with fields `b` and `n` (R95). The table has an entry for every 6-bit code
(`Sys2Proof.orderTable_length`), so the default is never used. -/
def ofFields (f : FCode) (b : BIndex) (n : Addr) : Instr := (orderTable.getD f.toNat .undef63) b n

/-- The decoder: every 20-bit word decodes to an order (R91). -/
def decode (w : Word) : Instr := ofFields (fieldF w) (fieldB w) (fieldN w)

/-- Why a number is not read as an order. -/
inductive DecodeError where
  /-- The number has a bit above bit 19: an order is one 20-bit word (R90). -/
  | notTwentyBits
  deriving DecidableEq, Repr

/-- The decoder on any number, rejecting by name what is no 20-bit word (R90, R91). -/
def decodeNat (w : Nat) : Except DecodeError Instr :=
  if w < 2 ^ 20 then .ok (decode (BitVec.ofNat 20 w)) else .error .notTwentyBits

/-- The order the decoder reads from the low `nbits` bits of `w`, all bits above them being 0. An order is one
word, so no layout of several words arises. -/
def decodeTableWord (nbits w : Nat) : Option Instr :=
  match decodeNat (w % 2 ^ nbits) with
  | .ok i => some i
  | .error _ => none

/-- The function code of an order (R95). -/
def fcode : Instr → FCode
  | .stop _ _ => 0#6
  | .stb _ _ => 1#6
  | .ldb _ _ => 2#6
  | .adb _ _ => 3#6
  | .sbb _ _ => 4#6
  | .lib _ _ => 5#6
  | .aib _ _ => 6#6
  | .sib _ _ => 7#6
  | .anb _ _ => 8#6
  | .xcb _ _ => 9#6
  | .rdt _ _ => 10#6
  | .undef11 _ _ => 11#6
  | .jbp _ _ => 12#6
  | .jbn _ _ => 13#6
  | .dj1 _ _ => 14#6
  | .dj2 _ _ => 15#6
  | .mda _ _ => 16#6
  | .mds _ _ => 17#6
  | .undef18 _ _ => 18#6
  | .undef19 _ _ => 19#6
  | .out _ _ => 20#6
  | .jan _ _ => 21#6
  | .jap _ _ => 22#6
  | .jaz _ _ => 23#6
  | .juf _ _ => 24#6
  | .jof _ _ => 25#6
  | .jmp _ _ => 26#6
  | .jsw _ _ => 27#6
  | .con _ _ => 28#6
  | .dis _ _ => 29#6
  | .undef30 _ _ => 30#6
  | .stl _ _ => 31#6
  | .lda _ _ => 32#6
  | .ada _ _ => 33#6
  | .sba _ _ => 34#6
  | .undef35 _ _ => 35#6
  | .asl _ _ => 36#6
  | .asr _ _ => 37#6
  | .lsl _ _ => 38#6
  | .lsr _ _ => 39#6
  | .lmc _ _ => 40#6
  | .lmn _ _ => 41#6
  | .ldm _ _ => 42#6
  | .adm _ _ => 43#6
  | .sbm _ _ => 44#6
  | .asm _ _ => 45#6
  | .ssm _ _ => 46#6
  | .xrm _ _ => 47#6
  | .anm _ _ => 48#6
  | .xcm _ _ => 49#6
  | .undef50 _ _ => 50#6
  | .std _ _ => 51#6
  | .ldd _ _ => 52#6
  | .add _ _ => 53#6
  | .sbd _ _ => 54#6
  | .lid _ _ => 55#6
  | .mul _ _ => 56#6
  | .undef57 _ _ => 57#6
  | .undef58 _ _ => 58#6
  | .xmd _ _ => 59#6
  | .ldv _ _ => 60#6
  | .undef61 _ _ => 61#6
  | .undef62 _ _ => 62#6
  | .undef63 _ _ => 63#6

/-- The b field of an order (R90). -/
def bField : Instr → BIndex
  | .stop b _ => b
  | .stb b _ => b
  | .ldb b _ => b
  | .adb b _ => b
  | .sbb b _ => b
  | .lib b _ => b
  | .aib b _ => b
  | .sib b _ => b
  | .anb b _ => b
  | .xcb b _ => b
  | .rdt b _ => b
  | .undef11 b _ => b
  | .jbp b _ => b
  | .jbn b _ => b
  | .dj1 b _ => b
  | .dj2 b _ => b
  | .mda b _ => b
  | .mds b _ => b
  | .undef18 b _ => b
  | .undef19 b _ => b
  | .out b _ => b
  | .jan b _ => b
  | .jap b _ => b
  | .jaz b _ => b
  | .juf b _ => b
  | .jof b _ => b
  | .jmp b _ => b
  | .jsw b _ => b
  | .con b _ => b
  | .dis b _ => b
  | .undef30 b _ => b
  | .stl b _ => b
  | .lda b _ => b
  | .ada b _ => b
  | .sba b _ => b
  | .undef35 b _ => b
  | .asl b _ => b
  | .asr b _ => b
  | .lsl b _ => b
  | .lsr b _ => b
  | .lmc b _ => b
  | .lmn b _ => b
  | .ldm b _ => b
  | .adm b _ => b
  | .sbm b _ => b
  | .asm b _ => b
  | .ssm b _ => b
  | .xrm b _ => b
  | .anm b _ => b
  | .xcm b _ => b
  | .undef50 b _ => b
  | .std b _ => b
  | .ldd b _ => b
  | .add b _ => b
  | .sbd b _ => b
  | .lid b _ => b
  | .mul b _ => b
  | .undef57 b _ => b
  | .undef58 b _ => b
  | .xmd b _ => b
  | .ldv b _ => b
  | .undef61 b _ => b
  | .undef62 b _ => b
  | .undef63 b _ => b

/-- The n field of an order (R90). -/
def nField : Instr → Addr
  | .stop _ n => n
  | .stb _ n => n
  | .ldb _ n => n
  | .adb _ n => n
  | .sbb _ n => n
  | .lib _ n => n
  | .aib _ n => n
  | .sib _ n => n
  | .anb _ n => n
  | .xcb _ n => n
  | .rdt _ n => n
  | .undef11 _ n => n
  | .jbp _ n => n
  | .jbn _ n => n
  | .dj1 _ n => n
  | .dj2 _ n => n
  | .mda _ n => n
  | .mds _ n => n
  | .undef18 _ n => n
  | .undef19 _ n => n
  | .out _ n => n
  | .jan _ n => n
  | .jap _ n => n
  | .jaz _ n => n
  | .juf _ n => n
  | .jof _ n => n
  | .jmp _ n => n
  | .jsw _ n => n
  | .con _ n => n
  | .dis _ n => n
  | .undef30 _ n => n
  | .stl _ n => n
  | .lda _ n => n
  | .ada _ n => n
  | .sba _ n => n
  | .undef35 _ n => n
  | .asl _ n => n
  | .asr _ n => n
  | .lsl _ n => n
  | .lsr _ n => n
  | .lmc _ n => n
  | .lmn _ n => n
  | .ldm _ n => n
  | .adm _ n => n
  | .sbm _ n => n
  | .asm _ n => n
  | .ssm _ n => n
  | .xrm _ n => n
  | .anm _ n => n
  | .xcm _ n => n
  | .undef50 _ n => n
  | .std _ n => n
  | .ldd _ n => n
  | .add _ n => n
  | .sbd _ n => n
  | .lid _ n => n
  | .mul _ n => n
  | .undef57 _ n => n
  | .undef58 _ n => n
  | .xmd _ n => n
  | .ldv _ n => n
  | .undef61 _ n => n
  | .undef62 _ n => n
  | .undef63 _ n => n

/-- The encoder (R92): f in bits 19:14, b in bits 13:11, n in bits 10:0. -/
def encode (i : Instr) : Word := fcode i ++ bField i ++ nField i

/-- The written form (f, b, n) of an order (R99). -/
def toOrder (i : Instr) : Order := ⟨(fcode i).toNat, (bField i).toNat, (nField i).toNat⟩

/-- The order a written triple stands for, none when the triple is ill formed (R92, R99). -/
def ofOrder (o : Order) : Option Instr :=
  if o.wf then some (ofFields (BitVec.ofNat 6 o.f) (BitVec.ofNat 3 o.b) (BitVec.ofNat 11 o.n)) else none

/-- The word a written triple packs to (R92), as a number. -/
def packOrder (o : Order) : Nat := o.f * 2 ^ 14 + o.b * 2 ^ 11 + o.n

/-- Every order of the syntax is well formed: its fields have exactly the widths of R90
(`Sys2Proof.Laws.WellFormedOrder`). -/
def Instr.wf (i : Instr) : Bool := (toOrder i).wf

end Sys2Proof
end

