-- ==== Sys2Proof/Config.lean ====
section
/-! DEFINITION. The implementation parameters of the spec (R8, R10): the open parameter `BOOT`, with no body, and
the three named parameters with the default that every rule and every vector of the spec uses. -/

namespace Sys2Proof

/-- The overflow predicate of a 21-bit register (R31, D3). -/
inductive OdPredicate where
  /-- The overflow digit differs from the sign digit: the spec's default. -/
  | differs
  /-- The overflow digit is set: the source's literal sentence. -/
  | topbit
  deriving DecidableEq, Repr

/-- What order 3 does (R143, D6). -/
inductive Op3Variant where
  /-- Order 3 adds: the spec's default. -/
  | add
  /-- Order 3 subtracts, as order 4. -/
  | subtract
  deriving DecidableEq, Repr

/-- The weight with which the operand's sign digit enters orders 33 and 34 (R203, D8). -/
inductive SignbitWeight where
  /-- +1, the operand is a 20-bit unsigned quantity: the spec's default. -/
  | plusOne
  /-- -1, the operand is sign-extended. -/
  | minusOne
  deriving DecidableEq, Repr

namespace Config

/-- `BOOT`, the contents of the bootstrap store (R8, D22). The source never lists the words, so the constant has no
body and nothing can be proved of its elements or its length. OPEN parameter, log entry 4. -/
opaque boot : List Word

/-- `MAIN_LEN` = 512 (R7). -/
abbrev mainLen : Nat := 512

/-- `OD_PREDICATE`, default `differs` (R10, R31). Log entry 9. -/
def odPredicate : OdPredicate := .differs

/-- `OP3_VARIANT`, default `add` (R10, R143). Log entry 10. -/
def op3Variant : Op3Variant := .add

/-- `SIGNBIT_WEIGHT`, default +1 (R10, R203). Log entry 11. -/
def signbitWeight : SignbitWeight := .plusOne

end Config

end Sys2Proof
end

