-- ==== Sys2Proof/Machine/State.lean ====
section
/-! DEFINITION. The machine's state (10_state.md), as plain data: every register, flag and store the spec names, the
host's inputs and outputs, and the two fields that live within one step only. -/

namespace Sys2Proof.Machine

/-- The four stop reasons (R300). STOP = `none`, the source's `Running`, is `Option.none`. -/
inductive StopReason where
  /-- Invalid order or address, counter out of range, or an explicit halt (R303). Only reset leaves it. -/
  | absolute
  /-- Requested by the program with order 0 (R304). The host resumes by stepping again. -/
  | normal
  /-- Overflow in M, L or D (R305). Execution may continue. -/
  | recoverableOverflow
  /-- Overflow detected in S (R306). Only reset leaves it. -/
  | irrecoverableOverflow
  deriving DecidableEq, Repr

/-- The stop reasons after which no step runs until reset (R111). -/
def StopReason.fatal : StopReason → Bool
  | .absolute => true
  | .normal => false
  | .recoverableOverflow => false
  | .irrecoverableOverflow => true

/-- The store that instruction fetch reads (R34). -/
inductive StoreSel where
  /-- The bootstrap store. -/
  | boot
  /-- The main store. -/
  | main
  deriving DecidableEq, Repr

/-- The events the machine hands to the host's hooks (R312). -/
inductive Event where
  /-- STOP went from none to a reason (R302). -/
  | stopped (r : StopReason)
  /-- The post-order hook, once for every step that fetched an order (R120). It carries nothing: the state it is
  about is the state the step ends with. -/
  | postOrder
  /-- Order 20: the addressed cell as a signed number (R173). -/
  | output (value : Int)
  /-- Order 28: the channel, the parity of the address, and the addressed cell as a signed number (R181). -/
  | connect (channel : Fin 2) (value : Int)
  /-- Order 29: the channel (R182). -/
  | disconnect (channel : Fin 2)
  deriving DecidableEq, Repr

/-- The triple (STOP, OVF, UNF) that a step saves and may restore (R40, R115, R119). -/
structure Status where
  /-- STOP as it stood. -/
  stop : Option StopReason
  /-- OVF as it stood. -/
  ovf : Bool
  /-- UNF as it stood. -/
  unf : Bool
  deriving DecidableEq, Repr

/-- The cleared triple: STOP none, both flags false (R115). -/
def Status.cleared : Status := ⟨none, false, false⟩

/-- A main-store cell that differs from the unlisted value: its address and its 20-bit word. The machine is
word-addressed and has no bytes (R63), so a cell is not a `Host.Cell`. Log entry 1. -/
abbrev MainCell := Nat × Word

/-- The main store (R38) as the list of the cells that are not zero. -/
abbrev Memory := List MainCell

/-- What a cell that is not listed reads as: 0, the reset value of every cell of MAIN (R41). Log entry 2. -/
def Memory.unlisted : Word := 0

/-- The canonical form: addresses strictly rising and below 512, no entry equal to the unlisted value. -/
abbrev Memory.wf (m : Memory) : Prop :=
  m.Pairwise (fun x y => x.1 < y.1) ∧ ∀ x ∈ m, x.1 < Config.mainLen ∧ x.2 ≠ Memory.unlisted

/-- The whole state of the machine. -/
structure State where
  /-- CTR, the counter (R20). -/
  ctr : Addr
  /-- B[0] to B[7] (R21). -/
  b : Vector Addr 8
  /-- M, the high half of the accumulator (R23). -/
  m : OdWord
  /-- L, the low half of the accumulator (R24). -/
  l : Low
  /-- D, the multiplier register (R26). -/
  d : OdWord
  /-- S, the store-transfer register (R27). -/
  s : OdWord
  /-- C, the control register (R28). -/
  c : OdWord
  /-- V, the inspection register (R29). -/
  v : OdWord
  /-- PM, the pending modifier (R33). -/
  pm : Option Addr
  /-- SEL, the store selector (R34). -/
  sel : StoreSel
  /-- OVF, the overflow flag (R35). -/
  ovf : Bool
  /-- UNF, the underflow flag (R35). -/
  unf : Bool
  /-- STOP, the stop reason (R36). -/
  stop : Option StopReason
  /-- OPTSTOP, the optional-stop switch, an input of the host (R37). Log entry 8. -/
  optstop : Bool
  /-- MAIN, the main store (R38). -/
  main : Memory
  /-- BOOT, the bootstrap store, read-only (R39). -/
  boot : List Word
  /-- The tape codes not yet read, an input of the host (R155). Log entry 7. -/
  tape : List Nat
  /-- Every event emitted so far, oldest first (R312). Log entry 5. -/
  events : List Event
  /-- Within a step: the status the step began with (R40). Cleared between steps. Log entry 6. -/
  saved : Status
  /-- Within a step: the output event of the order, emitted after PostOrder (R120). None between steps. The model's
  own field, log entry 6. -/
  hook : Option Event
  deriving DecidableEq, Repr

/-- Why a step could stop outside the machine's own STOP register: never. The spec turns every failing condition into
a stop reason, which is a next state (R301: "Nothing else stops the machine"), so the type has no constructor. Safe.
Log entry 13. -/
inductive Fault : Type
  deriving DecidableEq, Repr

/-- Why an order could be turned down by the model. -/
inductive Refusal where
  /-- Raised by an arm of `exec` for an order that has no meaning yet, none at present. Safe: the run ends there. -/
  | notModelled (mnemonic : String)
  deriving DecidableEq, Repr

/-- The state after construction or reset with the given bootstrap store and tape stream (R41, R330, R333): CTR = 0,
SEL = Boot, STOP = none, and every other register, flag and cell zero, false or none, as R41 decides (D21, D23). Log
entry 3. -/
def State.resetWith (boot : List Word) (tape : List Nat) : State :=
  { ctr := 0
    b := Vector.replicate 8 0
    m := 0
    l := 0
    d := 0
    s := 0
    c := 0
    v := 0
    pm := none
    sel := .boot
    ovf := false
    unf := false
    stop := none
    optstop := false
    main := []
    boot := boot
    tape := tape
    events := []
    saved := Status.cleared
    hook := none }

/-- The machine right after reset: BOOT is whatever the parameter says (R41) and no tape has been supplied yet (log
entry 7). -/
def State.reset : State := State.resetWith Config.boot []

end Sys2Proof.Machine
end

