-- ==== Sys2Proof/Machine/Ops.lean ====
section
/-! DEFINITION. The named operations over registers, stores and status: the access primitives `MemRead` and
`MemWrite` (R64, R65), raising a stop, which is the machine's one way of taking an exception (R302), the status
restore, which is its one way back from one (R119), and the tape (R155). -/

namespace Sys2Proof.Machine

/-- `sext_21(w, 20)`: how a store word enters a 21-bit register (R12, R32). -/
def sext21 (w : Word) : OdWord := w.signExtend 21

/-- `zext_21(w)` of an order word, for C (R28, R67). -/
def zext21 (w : Word) : OdWord := w.setWidth 21

/-- The low 20 bits of a 21-bit value, what a cell keeps of it (R65). -/
def cellBits (x : OdWord) : Word := x.setWidth 20

/-- The low 11 bits of a store word: what a B-register or the modifier takes of it (R43, R142, R172). -/
def addrBits (w : Word) : Addr := w.setWidth 11

/-! ### The main store -/

/-- The word of cell `a`. -/
def Memory.read : Memory → Nat → Word
  | [], _ => Memory.unlisted
  | (k, w) :: rest, a => if k = a then w else Memory.read rest a

/-- Put cell `a` before the first cell of a higher address. -/
def Memory.insert : Memory → Nat → Word → Memory
  | [], a, w => [(a, w)]
  | (k, x) :: rest, a, w => if a < k then (a, w) :: (k, x) :: rest else (k, x) :: Memory.insert rest a w

/-- Cell `a` becomes `w`. Writing the unlisted value removes the entry, so equal stores are equal lists. -/
def Memory.write (m : Memory) (a : Nat) (w : Word) : Memory :=
  let others := m.filter (fun x => x.1 != a)
  if w = Memory.unlisted then others else Memory.insert others a w

/-! ### Registers -/

/-- B[i] (R21). B[0] is an ordinary register (R22). -/
def State.getB (st : State) (i : BIndex) : Addr := st.b[i.toNat]'(i.isLt)

/-- B[i] <- x. -/
def State.setB (st : State) (i : BIndex) (x : Addr) : State := { st with b := st.b.set i.toNat x i.isLt }

/-- A = M ++ L, the 40-bit accumulator (R13, R25). -/
def State.acc (st : State) : Acc := st.m ++ st.l

/-- A <- x: M <- x[39:19], L <- x[18:0] (R13). -/
def State.setAcc (st : State) (x : Acc) : State :=
  { st with m := x.extractLsb' 19 21, l := x.extractLsb' 0 19 }

/-- CTR <- t when the condition of a jump holds (R20). -/
def State.jumpIf (st : State) (cond : Bool) (t : Addr) : State :=
  { st with ctr := if cond then t else st.ctr }

/-! ### Status: stops, flags, save and restore -/

/-- `raise Stop(r)` (R15, R302): the event Stopped(r) if STOP was none, then STOP <- r. Nothing is vectored and
nothing is saved. That the order ends here is the caller's: it is always a rule's last line. -/
def State.raiseStop (st : State) (r : StopReason) : State :=
  { st with
    stop := some r
    events := if st.stop = none then st.events ++ [.stopped r] else st.events }

/-- (STOP, OVF, UNF) <- saved (R119). No event: a restored reason is not a new transition. -/
def State.restoreStatus (st : State) : State :=
  { st with stop := st.saved.stop, ovf := st.saved.ovf, unf := st.saved.unf }

/-- saved <- (STOP, OVF, UNF), and the three cleared (R115). -/
def State.saveStatus (st : State) : State :=
  { st with saved := ⟨st.stop, st.ovf, st.unf⟩, stop := none, ovf := false, unf := false }

/-- Hand over the order's output event, to be emitted after PostOrder (R120). -/
def State.handOver (st : State) (e : Event) : State := { st with hook := some e }

/-! ### The access primitives -/

/-- Whether `a` names a cell of MAIN (R66). -/
def validAddr (a : Addr) : Bool := decide (a.toNat < Config.mainLen)

/-- The word of MAIN[a]. -/
def State.cell (st : State) (a : Addr) : Word := st.main.read a.toNat

/-- `MemRead(a, 1)` and what the order then does with the word read (R64): an invalid address raises Absolute and
changes nothing else (R66, R121), a valid one mirrors the word into S. -/
def memRead (a : Addr) (rest : Word → State → State) (st : State) : State :=
  if validAddr a then rest (st.cell a) { st with s := sext21 (st.cell a) } else st.raiseStop .absolute

/-- `MemWrite(a, 1, v)` and what the order then does (R65): an invalid address raises Absolute and changes nothing
else, a valid one puts the 21-bit mirror of the value into S and its low 20 bits into MAIN[a]. -/
def memWrite (a : Addr) (mirror : OdWord) (rest : State → State) (st : State) : State :=
  if validAddr a then rest { st with s := mirror, main := st.main.write a.toNat (cellBits mirror) }
  else st.raiseStop .absolute

/-! ### The tape -/

/-- The code `TapeRead()` returns: the low 5 bits of the next code, 0 at the end of the stream (R155, D30). -/
def State.tapeCode (st : State) : TapeCode := BitVec.ofNat 5 (st.tape.headD 0)

/-- The stream after `TapeRead()`: the code is consumed (R69, R155). -/
def State.tapeAdvance (st : State) : State := { st with tape := st.tape.tail }

end Sys2Proof.Machine
end

