-- ==== Sys2Proof/Machine/Cycle.lean ====
section
/-! DEFINITION. The parts of the step cycle that every order has in common (40_step_cycle.md): the halted gate, the
counter check, the fetch, the pending modifier, the status save, the decode, and the events at the end. -/

namespace Sys2Proof.Machine

/-- The halted gate (R111): after Absolute or IrrecoverableOverflow no step runs until reset. -/
def State.halted (st : State) : Bool :=
  match st.stop with
  | none => false
  | some r => r.fatal

/-- The word `InstrFetch()` reads (R67), none when CTR is at or beyond the length of the selected store (R112). -/
def State.fetchWord (st : State) : Option Word :=
  match st.sel with
  | .boot => st.boot[st.ctr.toNat]?
  | .main => if validAddr st.ctr then some (st.cell st.ctr) else none

/-- The fetch (R67, R113): S and C take the word, CTR advances modulo 2^11. -/
def State.loadOrder (st : State) (w : Word) : State :=
  { st with s := sext21 w, c := zext21 w, ctr := st.ctr + 1 }

/-- C[10:0] <- (C[10:0] + x) mod 2^11, C[20:11] unchanged (R114, R98). -/
def addToN (c : OdWord) (x : Addr) : OdWord := c.extractLsb' 11 10 ++ (c.extractLsb' 0 11 + x)

/-- The pending modifier is added into C and consumed (R114). S keeps the unmodified word. -/
def State.consumeModifier (st : State) : State :=
  match st.pm with
  | none => st
  | some x => { st with c := addToN st.c x, pm := none }

/-- Everything a step does before dispatch (R113 to R115). The within-step output event starts empty. -/
def State.beginOrder (st : State) (w : Word) : State :=
  { (st.loadOrder w).consumeModifier.saveStatus with hook := none }

/-- The order in C (R91, R114): C[20] is not read. -/
def State.decoded (st : State) : Instr := decode (cellBits st.c)

/-- Everything a step does after dispatch (R120): PostOrder, then the order's output event if it handed one over.
The saved status does not survive the step (R40). -/
def State.endOrder (st : State) : State :=
  { st with events := st.events ++ [.postOrder] ++ st.hook.toList, hook := none, saved := Status.cleared }

/-- The end of the step, on what the dispatch answered. -/
def finishOrder (o : Host.Outcome State Fault Refusal) : Host.Outcome State Fault Refusal :=
  match o with
  | .next st => .next st.endOrder
  | .fault e => .fault e
  | .refused e => .refused e

end Sys2Proof.Machine
end

