-- ==== Sys2Proof/Machine/Operands.lean ====
section
/-! DEFINITION. The operand forms of an order (R93): the effective address, the zero-extended immediate, the signed
shift count, the mirrors of the unsigned registers, and the channel of the peripheral orders. -/

namespace Sys2Proof.Machine

/-- EA (R116): with b = 0 the n field itself, else the sum of B[b] and n modulo 2^11. B[0] is never an index
(R22). -/
def State.ea (st : State) (b : BIndex) (n : Addr) : Addr := if b = 0 then n else st.getB b + n

/-- `zext_21` of an 11-bit quantity: a B-register mirrored into S, the immediate of order 55 (R65, R94). -/
def zextAddr (x : Addr) : OdWord := x.setWidth 21

/-- `zext_21(L)`, the mirror of order 31 (R201). -/
def zextLow (x : Low) : OdWord := x.setWidth 21

/-- `zext_21` of a tape code, the mirror of order 10 (R150). -/
def zextCode (x : TapeCode) : OdWord := x.setWidth 21

/-- `zext_11` of a tape code, what order 10 puts into B[b] (R150). -/
def codeToB (x : TapeCode) : Addr := x.setWidth 11

/-- `sint_11(n)`, the signed count of the shift orders, -1024 to 1023 (R94, R220). -/
def shiftCount (n : Addr) : Int := n.toInt

/-- The channel of orders 28 and 29: EA[0], the parity of the address (R181, R182). -/
def channelOf (a : Addr) : Fin 2 := Fin.ofNat 2 a.toNat

end Sys2Proof.Machine
end

