-- ==== Sys2Proof/Machine/BOrders.lean ====
section
/-! DEFINITION. The B-register orders, function codes 1 to 10 and 12 to 15 (41_b_register_orders.md). The b field
names the operand register, B[0] included, and n is used as it stands: these orders are never B-modified (R140). -/

namespace Sys2Proof.Machine

/-- Order 1, STB (R141). -/
def execStb (b : BIndex) (n : Addr) (st : State) : Host.Outcome State Fault Refusal :=
  .next (memWrite n (zextAddr (st.getB b)) id st)

/-- The orders that compute B[b] from B[b] and MAIN[n]: 2, 3, 4 and 8. -/
def withCellToB (f : Addr → Word → Addr) (b : BIndex) (n : Addr) (st : State) : State :=
  memRead n (fun w st => st.setB b (f (st.getB b) w)) st

/-- Order 2, LDB (R142): the low 11 bits of the cell. -/
def execLdb (b : BIndex) (n : Addr) (st : State) : Host.Outcome State Fault Refusal :=
  .next (withCellToB (fun _ w => addrBits w) b n st)

/-- What order 3 computes under either setting of OP3_VARIANT (R143, D6). -/
def op3 (p : Op3Variant) (x : Addr) (w : Word) : Addr :=
  match p with
  | .add => x + addrBits w
  | .subtract => x - addrBits w

/-- Order 3, ADB (R143). -/
def execAdb (b : BIndex) (n : Addr) (st : State) : Host.Outcome State Fault Refusal :=
  .next (withCellToB (op3 Config.op3Variant) b n st)

/-- Order 4, SBB (R144). -/
def execSbb (b : BIndex) (n : Addr) (st : State) : Host.Outcome State Fault Refusal :=
  .next (withCellToB (fun x w => x - addrBits w) b n st)

/-- Order 5, LIB (R145). -/
def execLib (b : BIndex) (n : Addr) (st : State) : Host.Outcome State Fault Refusal :=
  .next (st.setB b n)

/-- Order 6, AIB (R146). -/
def execAib (b : BIndex) (n : Addr) (st : State) : Host.Outcome State Fault Refusal :=
  .next (st.setB b (st.getB b + n))

/-- Order 7, SIB (R147). -/
def execSib (b : BIndex) (n : Addr) (st : State) : Host.Outcome State Fault Refusal :=
  .next (st.setB b (st.getB b - n))

/-- Order 8, ANB (R148). -/
def execAnb (b : BIndex) (n : Addr) (st : State) : Host.Outcome State Fault Refusal :=
  .next (withCellToB (fun x w => x &&& addrBits w) b n st)

/-- Order 9, XCB (R149): the cell is read, B[b] is written to it, and the word read goes to B[b]. S ends with the
value written (D38). -/
def execXcb (b : BIndex) (n : Addr) (st : State) : Host.Outcome State Fault Refusal :=
  .next (memRead n (fun w st => memWrite n (zextAddr (st.getB b)) (fun st => st.setB b (addrBits w)) st) st)

/-- Order 10, RDT (R150): the address is checked before the tape is advanced, then the code goes to B[b] and to
MAIN[n]. -/
def execRdt (b : BIndex) (n : Addr) (st : State) : Host.Outcome State Fault Refusal :=
  .next
    (if validAddr n then
      memWrite n (zextCode st.tapeCode) id ((st.tapeAdvance).setB b (codeToB st.tapeCode))
    else st.raiseStop .absolute)

/-- Order 12, JBP (R151): B[b] is read as unsigned, so every non-zero pattern is positive (D31). -/
def execJbp (b : BIndex) (n : Addr) (st : State) : Host.Outcome State Fault Refusal :=
  .next (st.jumpIf (decide (0 < (st.getB b).toNat)) n)

/-- Order 13, JBN (R152). -/
def execJbn (b : BIndex) (n : Addr) (st : State) : Host.Outcome State Fault Refusal :=
  .next (st.jumpIf (st.getB b != 0) n)

/-- B[b] <- B[b] - k, then a jump when the result is not 0 (R153, R154). -/
def countingJump (k : Addr) (b : BIndex) (n : Addr) (st : State) : State :=
  (st.setB b (st.getB b - k)).jumpIf (st.getB b - k != 0) n

/-- Order 14, DJ1 (R153). -/
def execDj1 (b : BIndex) (n : Addr) (st : State) : Host.Outcome State Fault Refusal :=
  .next (countingJump 1 b n st)

/-- Order 15, DJ2 (R154). -/
def execDj2 (b : BIndex) (n : Addr) (st : State) : Host.Outcome State Fault Refusal :=
  .next (countingJump 2 b n st)

end Sys2Proof.Machine
end

