-- ==== Sys2Proof/Machine/Flags.lean ====
section
/-! DEFINITION. Values, overflow and flags: how a 21-bit register is read as a number (R30), when it has overflowed
(R31), the single-length add (R250), the split double-length add and subtract (R203, R204) and the tests of the
accumulator (R174 to R176). -/

namespace Sys2Proof.Machine

/-- `val(R) = sint_20(R[19:0])`: the overflow digit does not enter the value (R30). -/
def val (r : OdWord) : Int := (cellBits r).toInt

/-- `ovf(R)` under either setting of OD_PREDICATE (R31). -/
def overflowedBy (p : OdPredicate) (r : OdWord) : Bool :=
  match p with
  | .differs => r.getLsbD 20 != r.getLsbD 19
  | .topbit => r.getLsbD 20

/-- `ovf(R)` (R31). -/
def hasOverflowed (r : OdWord) : Bool := overflowedBy Config.odPredicate r

/-- The direction in which a result left its range (R17, R35). -/
inductive Overflow where
  /-- Above the range: OVF. -/
  | positive
  /-- Below the range: UNF. -/
  | negative
  deriving DecidableEq, Repr

/-- Set the flag of the direction and raise RecoverableOverflow (R305), nothing when the result fits. -/
def State.signal (st : State) (o : Option Overflow) : State :=
  match o with
  | none => st
  | some .positive => { st with ovf := true }.raiseStop .recoverableOverflow
  | some .negative => { st with unf := true }.raiseStop .recoverableOverflow

/-- Raise IrrecoverableOverflow when S has overflowed (R256, R257, R260, R280). No flag is set (D14). -/
def State.checkS (st : State) : State := if hasOverflowed st.s then st.raiseStop .irrecoverableOverflow else st

/-- The exact sum of `SingleAdd(R, v, sign)` (R250). -/
def singleSum (r : OdWord) (v sign : Int) : Int := val r + sign * v

/-- The pattern `SingleAdd` leaves in R: the sum modulo 2^21 (R45, R250). -/
def singleValue (r : OdWord) (v sign : Int) : OdWord := BitVec.ofInt 21 (singleSum r v sign)

/-- Whether `SingleAdd` overflowed and in which direction (R250, D13). -/
def singleOverflow (r : OdWord) (v sign : Int) : Option Overflow :=
  if hasOverflowed (singleValue r v sign) then
    if 0 < singleSum r v sign then some .positive else some .negative
  else none

/-! ### The double-length add and subtract -/

/-- The low 19 bits of a store word, which line up with L (R200). -/
def lowPart (w : Word) : Low := w.extractLsb' 0 19

/-- One bit, in a 21-bit register. -/
def bit21 (x : Bool) : OdWord := if x then 1 else 0

/-- The 20-bit sum of L and the low part of the operand (R203). -/
def lowSum (l : Low) (w : Word) : BitVec 20 := l.setWidth 20 + (lowPart w).setWidth 20

/-- The carry out of the low half (R203). -/
def addCarry (l : Low) (w : Word) : Bool := (lowSum l w).getLsbD 19

/-- L after order 33 (R203). -/
def addLow (l : Low) (w : Word) : Low := (lowSum l w).setWidth 19

/-- M after order 33: M + SIGNBIT_WEIGHT * s[19] + carry (R203). -/
def addHigh (p : SignbitWeight) (m : OdWord) (l : Low) (w : Word) : OdWord :=
  match p with
  | .plusOne => m + bit21 (w.getLsbD 19) + bit21 (addCarry l w)
  | .minusOne => m - bit21 (w.getLsbD 19) + bit21 (addCarry l w)

/-- The borrow out of the low half (R204). -/
def subBorrow (l : Low) (w : Word) : Bool := decide (l.toNat < (lowPart w).toNat)

/-- L after order 34 (R204). -/
def subLow (l : Low) (w : Word) : Low := l - lowPart w

/-- M after order 34: M - SIGNBIT_WEIGHT * s[19] - borrow (R204). -/
def subHigh (p : SignbitWeight) (m : OdWord) (l : Low) (w : Word) : OdWord :=
  match p with
  | .plusOne => m - bit21 (w.getLsbD 19) - bit21 (subBorrow l w)
  | .minusOne => m + bit21 (w.getLsbD 19) - bit21 (subBorrow l w)

/-- M's sign digit, the accumulator's sign (R30, R174). -/
def signDigit (m : OdWord) : Bool := m.getLsbD 19

/-- Order 33 flags the change of M's sign digit from 0 to 1 (R203). -/
def addOverflow (before after : OdWord) : Option Overflow :=
  if !signDigit before && signDigit after then some .positive else none

/-- Order 34 flags the change of M's sign digit from 1 to 0 (R204). -/
def subOverflow (before after : OdWord) : Option Overflow :=
  if signDigit before && !signDigit after then some .negative else none

/-! ### Tests of the accumulator -/

/-- The accumulator value is negative: M[19] = 1, the overflow digit taking no part (R174, D32). -/
def State.accNegative (st : State) : Bool := signDigit st.m

/-- The accumulator value is not zero: M[19:0] != 0 or L != 0 (R176). -/
def State.accNonZero (st : State) : Bool := cellBits st.m != 0 || st.l != 0

/-- The accumulator value is positive: M[19] = 0 and not zero (R175). -/
def State.accPositive (st : State) : Bool := !signDigit st.m && st.accNonZero

end Sys2Proof.Machine
end

