-- ==== Sys2Proof/Machine/ControlOrders.lean ====
section
/-! DEFINITION. The control orders, function codes 0, 16, 17 and 20 to 29 (42_control_orders.md). -/

namespace Sys2Proof.Machine

/-- Order 0, STOP (R170): the stop check on the b and n fields and OPTSTOP. In the fourth case the saved status
comes back. -/
def execStop (b : BIndex) (n : Addr) (st : State) : Host.Outcome State Fault Refusal :=
  .next
    (if b = 0 ∧ n = 0 then st.raiseStop .absolute
    else if b = 0 then st.raiseStop .normal
    else if st.optstop then st.raiseStop .normal
    else st.restoreStatus)

/-- Order 16, MDA (R171): PM <- EA, status restored. No store access and no range check. -/
def execMda (b : BIndex) (n : Addr) (st : State) : Host.Outcome State Fault Refusal :=
  .next { st with pm := some (st.ea b n) }.restoreStatus

/-- Order 17, MDS (R172): PM <- MAIN[EA][10:0], status restored. An invalid address leaves its stop (R119). -/
def execMds (b : BIndex) (n : Addr) (st : State) : Host.Outcome State Fault Refusal :=
  .next (memRead (st.ea b n) (fun w st => { st with pm := some (addrBits w) }.restoreStatus) st)

/-- Order 20, OUT (R173). -/
def execOut (b : BIndex) (n : Addr) (st : State) : Host.Outcome State Fault Refusal :=
  .next (memRead (st.ea b n) (fun w st => st.handOver (.output w.toInt)) st)

/-- Order 21, JAN (R174). -/
def execJan (b : BIndex) (n : Addr) (st : State) : Host.Outcome State Fault Refusal :=
  .next (st.jumpIf st.accNegative (st.ea b n))

/-- Order 22, JAP (R175). -/
def execJap (b : BIndex) (n : Addr) (st : State) : Host.Outcome State Fault Refusal :=
  .next (st.jumpIf st.accPositive (st.ea b n))

/-- Order 23, JAZ (R176): the jump is taken on non-zero. -/
def execJaz (b : BIndex) (n : Addr) (st : State) : Host.Outcome State Fault Refusal :=
  .next (st.jumpIf st.accNonZero (st.ea b n))

/-- Order 24, JUF (R177): the flag as the previous order left it. -/
def execJuf (b : BIndex) (n : Addr) (st : State) : Host.Outcome State Fault Refusal :=
  .next (st.jumpIf st.saved.unf (st.ea b n))

/-- Order 25, JOF (R178): the flag as the previous order left it. -/
def execJof (b : BIndex) (n : Addr) (st : State) : Host.Outcome State Fault Refusal :=
  .next (st.jumpIf st.saved.ovf (st.ea b n))

/-- Order 26, JMP (R179). -/
def execJmp (b : BIndex) (n : Addr) (st : State) : Host.Outcome State Fault Refusal :=
  .next (st.jumpIf true (st.ea b n))

/-- The other store (R180). -/
def toggleSel (x : StoreSel) : StoreSel :=
  match x with
  | .boot => .main
  | .main => .boot

/-- Order 27, JSW (R180): jump and toggle the store that orders are fetched from. -/
def execJsw (b : BIndex) (n : Addr) (st : State) : Host.Outcome State Fault Refusal :=
  .next { st.jumpIf true (st.ea b n) with sel := toggleSel st.sel }

/-- Order 28, CON (R181): channel EA[0], value the addressed cell as a signed number. -/
def execCon (b : BIndex) (n : Addr) (st : State) : Host.Outcome State Fault Refusal :=
  .next (memRead (st.ea b n) (fun w t => t.handOver (.connect (channelOf (st.ea b n)) w.toInt)) st)

/-- Order 29, DIS (R182): channel EA[0]. The store is not read, so there is no range check. -/
def execDis (b : BIndex) (n : Addr) (st : State) : Host.Outcome State Fault Refusal :=
  .next (st.handOver (.disconnect (channelOf (st.ea b n))))

end Sys2Proof.Machine
end

