-- ==== Sys2Proof/Machine/DVOrders.lean ====
section
/-! DEFINITION. The orders on D and V and the multiply, function codes 51 to 56, 59 and 60 (47_d_v_orders.md). -/

namespace Sys2Proof.Machine

/-- Order 51, STD (R280): the cell is written, then S, D's 21 bits, is checked (D14). -/
def execStd (b : BIndex) (n : Addr) (st : State) : Host.Outcome State Fault Refusal :=
  .next (memWrite (st.ea b n) st.d State.checkS st)

/-- Order 52, LDD (R281). -/
def execLdd (b : BIndex) (n : Addr) (st : State) : Host.Outcome State Fault Refusal :=
  .next (memRead (st.ea b n) (fun w st => { st with d := sext21 w }) st)

/-- `SingleAdd(D, v, sign)` (R250). -/
def singleAddD (v sign : Int) (st : State) : State :=
  { st with d := singleValue st.d v sign }.signal (singleOverflow st.d v sign)

/-- Order 53, ADD (R282). -/
def execAdd (b : BIndex) (n : Addr) (st : State) : Host.Outcome State Fault Refusal :=
  .next (memRead (st.ea b n) (fun w st => singleAddD w.toInt 1 st) st)

/-- Order 54, SBD (R283). -/
def execSbd (b : BIndex) (n : Addr) (st : State) : Host.Outcome State Fault Refusal :=
  .next (memRead (st.ea b n) (fun w st => singleAddD w.toInt (-1) st) st)

/-- Order 55, LID (R284): the unsigned immediate, b ignored. -/
def execLid (_b : BIndex) (n : Addr) (st : State) : Host.Outcome State Fault Refusal :=
  .next { st with d := zextAddr n }

/-- The exact product of order 56 (R285). -/
def product (w : Word) (d : OdWord) : Int := w.toInt * val d

/-- A <- p mod 2^40, then the check of M (R285): only p = 2^38 fails it, and being positive it sets OVF (D13). -/
def loadProduct (p : Int) (st : State) : State :=
  (st.setAcc (BitVec.ofInt 40 p)).signal
    (if hasOverflowed (st.setAcc (BitVec.ofInt 40 p)).m then some .positive else none)

/-- Order 56, MUL (R285). -/
def execMul (b : BIndex) (n : Addr) (st : State) : Host.Outcome State Fault Refusal :=
  .next (memRead (st.ea b n) (fun w st => loadProduct (product w st.d) st) st)

/-- Order 59, XMD (R286): the raw 21-bit patterns change places, b and n ignored. -/
def execXmd (_b : BIndex) (_n : Addr) (st : State) : Host.Outcome State Fault Refusal :=
  .next { st with m := st.d, d := st.m }

/-- Order 60, LDV (R287): V takes the 21-bit mirror. -/
def execLdv (b : BIndex) (n : Addr) (st : State) : Host.Outcome State Fault Refusal :=
  .next (memRead (st.ea b n) (fun _ st => { st with v := st.s }) st)

end Sys2Proof.Machine
end

