-- ==== Sys2Proof/Machine/DoubleLength.lean ====
section
/-! DEFINITION. The double-length accumulator orders, function codes 31 to 34 (44_accumulator_double_length.md). -/

namespace Sys2Proof.Machine

/-- Order 31, STL (R201). -/
def execStl (b : BIndex) (n : Addr) (st : State) : Host.Outcome State Fault Refusal :=
  .next (memWrite (st.ea b n) (zextLow st.l) id st)

/-- Order 32, LDA (R202): L takes the low 19 bits, all 21 bits of M are copies of the word's sign. -/
def execLda (b : BIndex) (n : Addr) (st : State) : Host.Outcome State Fault Refusal :=
  .next (memRead (st.ea b n)
    (fun w st => { st with m := if w.getLsbD 19 then BitVec.allOnes 21 else 0, l := lowPart w }) st)

/-- Order 33, ADA (R203): M and L are written before the stop is raised. -/
def execAda (b : BIndex) (n : Addr) (st : State) : Host.Outcome State Fault Refusal :=
  .next (memRead (st.ea b n)
    (fun w st =>
      { st with m := addHigh Config.signbitWeight st.m st.l w, l := addLow st.l w }.signal
        (addOverflow st.m (addHigh Config.signbitWeight st.m st.l w))) st)

/-- Order 34, SBA (R204): M and L are written before the stop is raised. -/
def execSba (b : BIndex) (n : Addr) (st : State) : Host.Outcome State Fault Refusal :=
  .next (memRead (st.ea b n)
    (fun w st =>
      { st with m := subHigh Config.signbitWeight st.m st.l w, l := subLow st.l w }.signal
        (subOverflow st.m (subHigh Config.signbitWeight st.m st.l w))) st)

end Sys2Proof.Machine
end

