-- ==== Sys2Proof/Machine/MOrders.lean ====
section
/-! DEFINITION. The single-length orders on M, function codes 40 to 49 (46_m_orders.md). All are B-modified. L is
touched by order 40 only. -/

namespace Sys2Proof.Machine

/-- Order 40, LMC (R251): the cell is read into S, then M and L are cleared. The assignment to M that comes before
the clear is not observable. -/
def execLmc (b : BIndex) (n : Addr) (st : State) : Host.Outcome State Fault Refusal :=
  .next (memRead (st.ea b n) (fun _ st => { st with m := 0, l := 0 }) st)

/-- Order 41, LMN (R252). -/
def execLmn (b : BIndex) (n : Addr) (st : State) : Host.Outcome State Fault Refusal :=
  .next (memRead (st.ea b n) (fun w st => { st with m := sext21 w }) st)

/-- Order 42, LDM (R253). -/
def execLdm (b : BIndex) (n : Addr) (st : State) : Host.Outcome State Fault Refusal :=
  .next (memRead (st.ea b n) (fun w st => { st with m := sext21 w }) st)

/-- `SingleAdd(M, v, sign)` (R250). -/
def singleAddM (v sign : Int) (st : State) : State :=
  { st with m := singleValue st.m v sign }.signal (singleOverflow st.m v sign)

/-- Order 43, ADM (R254). -/
def execAdm (b : BIndex) (n : Addr) (st : State) : Host.Outcome State Fault Refusal :=
  .next (memRead (st.ea b n) (fun w st => singleAddM w.toInt 1 st) st)

/-- Order 44, SBM (R255). -/
def execSbm (b : BIndex) (n : Addr) (st : State) : Host.Outcome State Fault Refusal :=
  .next (memRead (st.ea b n) (fun w st => singleAddM w.toInt (-1) st) st)

/-- Add sign * val(M) to the cell through S, then check S (R256, R257). -/
def addMToStore (sign : Int) (b : BIndex) (n : Addr) (st : State) : State :=
  memRead (st.ea b n)
    (fun w t => memWrite (st.ea b n) (BitVec.ofInt 21 (w.toInt + sign * val t.m)) State.checkS t) st

/-- Order 45, ASM (R256). -/
def execAsm (b : BIndex) (n : Addr) (st : State) : Host.Outcome State Fault Refusal :=
  .next (addMToStore 1 b n st)

/-- Order 46, SSM (R257). -/
def execSsm (b : BIndex) (n : Addr) (st : State) : Host.Outcome State Fault Refusal :=
  .next (addMToStore (-1) b n st)

/-- Order 47, XRM (R258): all 21 bits, the operand being S as just loaded (D4). -/
def execXrm (b : BIndex) (n : Addr) (st : State) : Host.Outcome State Fault Refusal :=
  .next (memRead (st.ea b n) (fun _ st => { st with m := st.m ^^^ st.s }) st)

/-- Order 48, ANM (R259): all 21 bits, the operand being S as just loaded (D4). -/
def execAnm (b : BIndex) (n : Addr) (st : State) : Host.Outcome State Fault Refusal :=
  .next (memRead (st.ea b n) (fun _ st => { st with m := st.m &&& st.s }) st)

/-- Order 49, XCM (R260): both sides are written, then S, M's old 21 bits, is checked. -/
def execXcm (b : BIndex) (n : Addr) (st : State) : Host.Outcome State Fault Refusal :=
  .next (memRead (st.ea b n)
    (fun w t => memWrite (st.ea b n) t.m (fun t => { t with m := sext21 w }.checkS) t) st)

end Sys2Proof.Machine
end

