-- ==== Sys2Proof/Machine/Shifts.lean ====
section
/-! DEFINITION. The shift engine, function codes 36 to 39 (45_shifts.md): the four primitive shifts of the 40-bit
accumulator by a magnitude k >= 1 (R222 to R225), the reversal on a negative count (R221), and the four orders. -/

namespace Sys2Proof.Machine

/-- 40 copies of the accumulator's sign A[39] (R222). -/
def signFill (a : Acc) : Acc := if a.getLsbD 39 then BitVec.allOnes 40 else 0

/-- The accumulator after ASL(k) (R222): at 40 and above it saturates to the sign fill. -/
def aslValue (k : Nat) (a : Acc) : Acc := if k ≤ 39 then a <<< k else signFill a

/-- Whether ASL(k) loses bits (R222): the top k + 1 bits of A are not all equal, or the overshift discards something
other than the sign fill (D10). -/
def aslLost (k : Nat) (a : Acc) : Bool :=
  if k ≤ 39 then
    a.extractLsb' (39 - k) (k + 1) != 0 && a.extractLsb' (39 - k) (k + 1) != BitVec.allOnes (k + 1)
  else a != signFill a

/-- ASL(k): A is written before the stop is raised, and the flag is always OVF (R222, D11). -/
def shiftAsl (k : Nat) (st : State) : State :=
  (st.setAcc (aslValue k st.acc)).signal (if aslLost k st.acc then some .positive else none)

/-- ASR(k): k copies of A[39] enter at the top, no flag and no stop (R223). -/
def shiftAsr (k : Nat) (st : State) : State :=
  st.setAcc (if k ≤ 39 then st.acc.sshiftRight k else signFill st.acc)

/-- LSL(k): zeros enter at the bottom, no flag and no stop (R224). -/
def shiftLsl (k : Nat) (st : State) : State := st.setAcc (if k ≤ 39 then st.acc <<< k else 0)

/-- LSR(k): zeros enter at the top, no flag and no stop (R225). -/
def shiftLsr (k : Nat) (st : State) : State := st.setAcc (if k ≤ 39 then st.acc >>> k else 0)

/-- The direction (R221): a positive count applies the order's own primitive, a negative one the opposite primitive
with the magnitude, 0 nothing. -/
def shiftBySigned (own opposite : Nat → State → State) (n : Addr) (st : State) : State :=
  if 0 < shiftCount n then own (shiftCount n).toNat st
  else if shiftCount n < 0 then opposite (-shiftCount n).toNat st
  else st

/-- Order 36, ASL (R226), b ignored. -/
def execAsl (_b : BIndex) (n : Addr) (st : State) : Host.Outcome State Fault Refusal :=
  .next (shiftBySigned shiftAsl shiftAsr n st)

/-- Order 37, ASR (R227), b ignored. -/
def execAsr (_b : BIndex) (n : Addr) (st : State) : Host.Outcome State Fault Refusal :=
  .next (shiftBySigned shiftAsr shiftAsl n st)

/-- Order 38, LSL (R228), b ignored. -/
def execLsl (_b : BIndex) (n : Addr) (st : State) : Host.Outcome State Fault Refusal :=
  .next (shiftBySigned shiftLsl shiftLsr n st)

/-- Order 39, LSR (R229), b ignored. -/
def execLsr (_b : BIndex) (n : Addr) (st : State) : Host.Outcome State Fault Refusal :=
  .next (shiftBySigned shiftLsr shiftLsl n st)

end Sys2Proof.Machine
end

