-- ==== Sys2Proof/Machine/UndefinedCodes.lean ====
section
/-! DEFINITION. The eleven undefined function codes (R96, R183): each raises Stop(Absolute) and does nothing else
beyond the common part of the step, b and n ignored. Codes 35 and 58 are among them (D20, C10). -/

namespace Sys2Proof.Machine

/-- What a function code with no order does (R183). -/
def undefinedCode (st : State) : Host.Outcome State Fault Refusal := .next (st.raiseStop .absolute)

/-- Function code 11 (R183). -/
def execUndef11 (_b : BIndex) (_n : Addr) (st : State) : Host.Outcome State Fault Refusal := undefinedCode st

/-- Function code 18 (R183). -/
def execUndef18 (_b : BIndex) (_n : Addr) (st : State) : Host.Outcome State Fault Refusal := undefinedCode st

/-- Function code 19 (R183). -/
def execUndef19 (_b : BIndex) (_n : Addr) (st : State) : Host.Outcome State Fault Refusal := undefinedCode st

/-- Function code 30 (R183). -/
def execUndef30 (_b : BIndex) (_n : Addr) (st : State) : Host.Outcome State Fault Refusal := undefinedCode st

/-- Function code 35 (R183). -/
def execUndef35 (_b : BIndex) (_n : Addr) (st : State) : Host.Outcome State Fault Refusal := undefinedCode st

/-- Function code 50 (R183). -/
def execUndef50 (_b : BIndex) (_n : Addr) (st : State) : Host.Outcome State Fault Refusal := undefinedCode st

/-- Function code 57 (R183). -/
def execUndef57 (_b : BIndex) (_n : Addr) (st : State) : Host.Outcome State Fault Refusal := undefinedCode st

/-- Function code 58 (R183). -/
def execUndef58 (_b : BIndex) (_n : Addr) (st : State) : Host.Outcome State Fault Refusal := undefinedCode st

/-- Function code 61 (R183). -/
def execUndef61 (_b : BIndex) (_n : Addr) (st : State) : Host.Outcome State Fault Refusal := undefinedCode st

/-- Function code 62 (R183). -/
def execUndef62 (_b : BIndex) (_n : Addr) (st : State) : Host.Outcome State Fault Refusal := undefinedCode st

/-- Function code 63 (R183). -/
def execUndef63 (_b : BIndex) (_n : Addr) (st : State) : Host.Outcome State Fault Refusal := undefinedCode st

end Sys2Proof.Machine
end

