-- ==== Sys2Proof/Machine/Dispatch.lean ====
section
/-! DEFINITION. The dispatch (R118): one arm per order. An order starts from the state after R113 to R115 (log entry
16). -/

namespace Sys2Proof.Machine

def exec (i : Instr) (s : State) : Host.Outcome State Fault Refusal :=
  match i with
  | .stop b n => Sys2Proof.Machine.execStop b n s
  | .stb b n => Sys2Proof.Machine.execStb b n s
  | .ldb b n => Sys2Proof.Machine.execLdb b n s
  | .adb b n => Sys2Proof.Machine.execAdb b n s
  | .sbb b n => Sys2Proof.Machine.execSbb b n s
  | .lib b n => Sys2Proof.Machine.execLib b n s
  | .aib b n => Sys2Proof.Machine.execAib b n s
  | .sib b n => Sys2Proof.Machine.execSib b n s
  | .anb b n => Sys2Proof.Machine.execAnb b n s
  | .xcb b n => Sys2Proof.Machine.execXcb b n s
  | .rdt b n => Sys2Proof.Machine.execRdt b n s
  | .undef11 b n => Sys2Proof.Machine.execUndef11 b n s
  | .jbp b n => Sys2Proof.Machine.execJbp b n s
  | .jbn b n => Sys2Proof.Machine.execJbn b n s
  | .dj1 b n => Sys2Proof.Machine.execDj1 b n s
  | .dj2 b n => Sys2Proof.Machine.execDj2 b n s
  | .mda b n => Sys2Proof.Machine.execMda b n s
  | .mds b n => Sys2Proof.Machine.execMds b n s
  | .undef18 b n => Sys2Proof.Machine.execUndef18 b n s
  | .undef19 b n => Sys2Proof.Machine.execUndef19 b n s
  | .out b n => Sys2Proof.Machine.execOut b n s
  | .jan b n => Sys2Proof.Machine.execJan b n s
  | .jap b n => Sys2Proof.Machine.execJap b n s
  | .jaz b n => Sys2Proof.Machine.execJaz b n s
  | .juf b n => Sys2Proof.Machine.execJuf b n s
  | .jof b n => Sys2Proof.Machine.execJof b n s
  | .jmp b n => Sys2Proof.Machine.execJmp b n s
  | .jsw b n => Sys2Proof.Machine.execJsw b n s
  | .con b n => Sys2Proof.Machine.execCon b n s
  | .dis b n => Sys2Proof.Machine.execDis b n s
  | .undef30 b n => Sys2Proof.Machine.execUndef30 b n s
  | .stl b n => Sys2Proof.Machine.execStl b n s
  | .lda b n => Sys2Proof.Machine.execLda b n s
  | .ada b n => Sys2Proof.Machine.execAda b n s
  | .sba b n => Sys2Proof.Machine.execSba b n s
  | .undef35 b n => Sys2Proof.Machine.execUndef35 b n s
  | .asl b n => Sys2Proof.Machine.execAsl b n s
  | .asr b n => Sys2Proof.Machine.execAsr b n s
  | .lsl b n => Sys2Proof.Machine.execLsl b n s
  | .lsr b n => Sys2Proof.Machine.execLsr b n s
  | .lmc b n => Sys2Proof.Machine.execLmc b n s
  | .lmn b n => Sys2Proof.Machine.execLmn b n s
  | .ldm b n => Sys2Proof.Machine.execLdm b n s
  | .adm b n => Sys2Proof.Machine.execAdm b n s
  | .sbm b n => Sys2Proof.Machine.execSbm b n s
  | .asm b n => Sys2Proof.Machine.execAsm b n s
  | .ssm b n => Sys2Proof.Machine.execSsm b n s
  | .xrm b n => Sys2Proof.Machine.execXrm b n s
  | .anm b n => Sys2Proof.Machine.execAnm b n s
  | .xcm b n => Sys2Proof.Machine.execXcm b n s
  | .undef50 b n => Sys2Proof.Machine.execUndef50 b n s
  | .std b n => Sys2Proof.Machine.execStd b n s
  | .ldd b n => Sys2Proof.Machine.execLdd b n s
  | .add b n => Sys2Proof.Machine.execAdd b n s
  | .sbd b n => Sys2Proof.Machine.execSbd b n s
  | .lid b n => Sys2Proof.Machine.execLid b n s
  | .mul b n => Sys2Proof.Machine.execMul b n s
  | .undef57 b n => Sys2Proof.Machine.execUndef57 b n s
  | .undef58 b n => Sys2Proof.Machine.execUndef58 b n s
  | .xmd b n => Sys2Proof.Machine.execXmd b n s
  | .ldv b n => Sys2Proof.Machine.execLdv b n s
  | .undef61 b n => Sys2Proof.Machine.execUndef61 b n s
  | .undef62 b n => Sys2Proof.Machine.execUndef62 b n s
  | .undef63 b n => Sys2Proof.Machine.execUndef63 b n s

end Sys2Proof.Machine
end

