-- ==== Sys2Proof/Machine/Step.lean ====
section
/-! DEFINITION. The step (40_step_cycle.md section 3), and the placing of an order where the next step fetches. -/

namespace Sys2Proof.Machine

/-- One step, the source's `executeNextOrder()`: the halted gate (R111), the counter check (R112), the fetch, the
modifier, the decode and the status save (R113 to R115), the dispatch with the restore (R118, R119), the events
(R120). -/
def step (s : State) : Host.Outcome State Fault Refusal :=
  if s.halted then .next s
  else
    match s.fetchWord with
    | none => .next (s.raiseStop .absolute)
    | some w => finishOrder (exec (s.beginOrder w).decoded (s.beginOrder w))

/-- `s` with the order word of the low `nbits` bits of `w` placed where the next step fetches, and with whatever else
the next step needs to run exactly it: MAIN selected, since BOOT is read-only, CTR inside MAIN, no pending modifier,
and no fatal stop in force. Not an operation of the machine or of its host (R314). Log entry 14. -/
def State.withFetchWord (s : State) (nbits w : Nat) : State :=
  { s with
    sel := .main
    ctr := if validAddr s.ctr then s.ctr else 0
    main := s.main.write (if validAddr s.ctr then s.ctr.toNat else 0) (BitVec.ofNat 20 (w % 2 ^ nbits))
    pm := none
    stop := if s.halted then none else s.stop }

end Sys2Proof.Machine
end

