-- ==== Sys2Proof/Machine/HostOps.lean ====
section
/-! DEFINITION. What the host may do between steps besides stepping (R314): reset the machine (R330, R333), set or
clear OPTSTOP (R9), supply tape (R155). BOOT is supplied at construction only, with `State.resetWith`. -/

namespace Sys2Proof.Machine

/-- The host-issued reset (R330, R333): everything as after construction, MAIN included, BOOT not affected, and a
fresh tape list as its argument. -/
def State.hostReset (st : State) (tape : List Nat) : State := State.resetWith st.boot tape

/-- The host sets or clears the optional-stop switch (R9, R37, D23). -/
def State.hostSetOptstop (st : State) (x : Bool) : State := { st with optstop := x }

/-- The host adds codes to the end of the tape stream (R155, R314 (d)). That it may do so at any time between steps,
also after an order 10 has read the end of tape, so that a later order 10 reads the new codes, is the model's choice:
the spec gives no time or manner of supply, and R150's "every later order 10 does the same" holds while nothing is
added. DESIGN CHOICE, unsafe. Log entry 20. -/
def State.hostSupplyTape (st : State) (codes : List Nat) : State := { st with tape := st.tape ++ codes }

end Sys2Proof.Machine
end

