-- ==== Sys2Proof/Safety.lean ====
section
/-! DEFINITION. The terms that claims about the machine are stated in: the invariant of the machine between steps,
what "this cell became w" and "this register became x" mean, the spec's own tables of which orders name a store
address, jump or write a register (R93, R117), and the two halves of a 40-bit value. -/

namespace Sys2Proof.Machine

/-! ### The invariant -/

/-- OVF, UNF and STOP agree (R305, R306, R112): never both flags, exactly one of them with RecoverableOverflow, and
none with another reason, but that the counter check may put Absolute over a RecoverableOverflow and keeps its flag. -/
def StatusConsistent (st : State) : Prop :=
  (st.stop = some .recoverableOverflow → st.ovf ≠ st.unf) ∧
  (st.ovf = true ∨ st.unf = true → st.stop = some .recoverableOverflow ∨ st.stop = some .absolute) ∧
  ¬(st.ovf = true ∧ st.unf = true)

/-- Normal form of a 21-bit register: overflow digit and sign digit agree (R32). -/
def NormalForm (r : OdWord) : Prop := r.getLsbD 20 = r.getLsbD 19

/-- What holds of the machine between steps: MAIN is in its canonical form, the status is consistent, C[20] is 0
(R28, D33), V is in normal form (R32, R287), and nothing of a step's inner state survives (R40). -/
structure Inv (st : State) : Prop where
  /-- MAIN lists rising addresses below 512 and no zero. -/
  memory : st.main.wf
  /-- OVF, UNF and STOP agree. -/
  status : StatusConsistent st
  /-- C[20] is 0. -/
  control : st.c.getLsbD 20 = false
  /-- V is in normal form. -/
  inspection : NormalForm st.v
  /-- The saved status is gone. -/
  saved : st.saved = ⟨none, false, false⟩
  /-- No output event waits. -/
  hook : st.hook = none

/-! ### Effects -/

/-- In MAIN, cell `a` became `w` and every other cell reads as before. -/
def CellWritten (st t : State) (a : Nat) (w : Word) : Prop :=
  ∀ x, t.main.read x = if x = a then w else st.main.read x

/-- B[i] became `x` and every other B-register reads as before. -/
def BWritten (st t : State) (i : BIndex) (x : Addr) : Prop :=
  ∀ j, t.getB j = if j = i then x else st.getB j

/-- The high 21 bits of a 40-bit value, the part M holds (R13). -/
def accHigh (x : Acc) : OdWord := x.extractLsb' 19 21

/-- The low 19 bits of a 40-bit value, the part L holds (R13). -/
def accLow (x : Acc) : Low := x.extractLsb' 0 19

/-- The accumulator value of R25: sint_20(M[19:0]) * 2^19 + L. -/
def accValue (st : State) : Int := (st.m.extractLsb' 0 20).toInt * 2 ^ 19 + st.l.toNat

/-! ### The spec's tables over the orders -/

/-- The function code of the order is one of these. -/
def codeIn (i : Instr) (codes : List Nat) : Prop := (fcode i).toNat ∈ codes

/-- The orders whose n names a cell of MAIN without B-modification (R93). -/
def plainAddressCodes : List Nat := [1, 2, 3, 4, 8, 9, 10]

/-- The orders that read or write MAIN[EA] (R93, R117). Order 29 forms EA and reads nothing (R182). -/
def indexedAddressCodes : List Nat :=
  [17, 20, 28, 31, 32, 33, 34, 40, 41, 42, 43, 44, 45, 46, 47, 48, 49, 51, 52, 53, 54, 56, 60]

/-- The orders that write MAIN (R68): 1, 9, 10, 31, 45, 46, 49, 51. -/
def storingCodes : List Nat := [1, 9, 10, 31, 45, 46, 49, 51]

/-- The cell of MAIN an order names in this state, none when it makes no data access (R93, R116). -/
def dataAddress (i : Instr) (st : State) : Option Addr :=
  if (fcode i).toNat ∈ plainAddressCodes then some (nField i)
  else if (fcode i).toNat ∈ indexedAddressCodes then some (st.ea (bField i) (nField i))
  else none

/-- The target a jump order names in this state (R93): n for 12 to 15, EA for 21 to 27. -/
def jumpTarget (i : Instr) (st : State) : Option Addr :=
  if (fcode i).toNat ∈ [12, 13, 14, 15] then some (nField i)
  else if (fcode i).toNat ∈ [21, 22, 23, 24, 25, 26, 27] then some (st.ea (bField i) (nField i))
  else none

end Sys2Proof.Machine
end

