-- ==== Sys2Proof/Certificates/Slice0/Obligations.lean ====
section
/-! DEFINITION. The statements for the provers, from the numbered rules of spec/. In each, `st` is any state: for the
orders it stands for the state after R113 to R115, which is where an order's rule starts (log entry 16). A statement
about an order's result is an equation `exec … = .next …` or `∃ t, exec … = .next t ∧ …`, so it says that the order
completes, what it writes, and, by the record update, that every other field is as before. Where a store word enters
S, M, D or V sign-extended (`signExtend 21`), a statement rests on the spec's decision D4 (R32, log entry 12). Each
statement about a shift takes the signed n field as the count, whatever b is, by its decision D17 (R220, log entry
12). -/

open Sys2Proof Sys2Proof.Machine

/-! ### Encoding -/

/-- R92: `word = f * 2^14 + b * 2^11 + n` with the three ranges, `decode(encode(f, b, n)) = (f, b, n)`, and the
example (1, 3, 10) = 22538. Every order of the syntax is well formed, so it is stated for every order. -/
def Obligations.EncodePacksTheTriple : Prop :=
  (∀ i : Instr,
    (encode i).toNat = (toOrder i).f * 2 ^ 14 + (toOrder i).b * 2 ^ 11 + (toOrder i).n ∧
    (toOrder i).f ≤ 63 ∧ (toOrder i).b ≤ 7 ∧ (toOrder i).n ≤ 2047 ∧
    decode (encode i) = i ∧ ofOrder (toOrder i) = some i) ∧
  ofOrder ⟨1, 3, 10⟩ = some (.stb 3 10) ∧ (encode (.stb 3 10)).toNat = 22538

/-- R91 with E1: decoding a 20-bit word is total and loses no bit. The last clause, that a number of 2^20 or more is
turned down with the name notTwentyBits, is the model's choice (log entry 18, DESIGN CHOICE): R91 and E1 speak of 20-bit
words only. -/
def Obligations.DecodeIsTotalAndInjective : Prop :=
  (∀ w : Word, encode (decode w) = w ∧ decodeNat w.toNat = .ok (decode w)) ∧
  (∀ k : Nat, 2 ^ 20 ≤ k → decodeNat k = .error .notTwentyBits)

/-- Words written out bit by bit from R90 and R95, one for each family of the opcode table. -/
def Obligations.WrittenOutWordsDecode : Prop :=
  decode 0b00000101100000001010#20 = .stb 3 10 ∧ decode 0b00010100100000000011#20 = .lib 1 3 ∧
  decode 0b00001101000000001001#20 = .adb 2 9 ∧ decode 0b00111000100000000010#20 = .dj1 1 2 ∧
  decode 0b00000001100000000000#20 = .stop 3 0 ∧ decode 0b01101000100001100100#20 = .jmp 1 100 ∧
  decode 0b01110000000000101001#20 = .con 0 41 ∧ decode 0b10000100000000001100#20 = .ada 0 12 ∧
  decode 0b10010100010000000000#20 = .asr 0 1024 ∧ decode 0b10101100100000001111#20 = .adm 1 15 ∧
  decode 0b11100000000000010100#20 = .mul 0 20 ∧ decode 0b11101111111111111111#20 = .xmd 7 2047 ∧
  decode 0b10001100000000000000#20 = .undef35 0 0 ∧ decode 0b11111111111111111111#20 = .undef63 7 2047

/-- R95: the function code alone selects the order, whatever b and n are, for all 64 codes. -/
def Obligations.FunctionCodeSelectsTheOrder : Prop :=
  ∀ (b : BIndex) (n : Addr),
    decode (0#6 ++ b ++ n) = .stop b n ∧ decode (1#6 ++ b ++ n) = .stb b n ∧
    decode (2#6 ++ b ++ n) = .ldb b n ∧ decode (3#6 ++ b ++ n) = .adb b n ∧
    decode (4#6 ++ b ++ n) = .sbb b n ∧ decode (5#6 ++ b ++ n) = .lib b n ∧
    decode (6#6 ++ b ++ n) = .aib b n ∧ decode (7#6 ++ b ++ n) = .sib b n ∧
    decode (8#6 ++ b ++ n) = .anb b n ∧ decode (9#6 ++ b ++ n) = .xcb b n ∧
    decode (10#6 ++ b ++ n) = .rdt b n ∧ decode (11#6 ++ b ++ n) = .undef11 b n ∧
    decode (12#6 ++ b ++ n) = .jbp b n ∧ decode (13#6 ++ b ++ n) = .jbn b n ∧
    decode (14#6 ++ b ++ n) = .dj1 b n ∧ decode (15#6 ++ b ++ n) = .dj2 b n ∧
    decode (16#6 ++ b ++ n) = .mda b n ∧ decode (17#6 ++ b ++ n) = .mds b n ∧
    decode (18#6 ++ b ++ n) = .undef18 b n ∧ decode (19#6 ++ b ++ n) = .undef19 b n ∧
    decode (20#6 ++ b ++ n) = .out b n ∧ decode (21#6 ++ b ++ n) = .jan b n ∧
    decode (22#6 ++ b ++ n) = .jap b n ∧ decode (23#6 ++ b ++ n) = .jaz b n ∧
    decode (24#6 ++ b ++ n) = .juf b n ∧ decode (25#6 ++ b ++ n) = .jof b n ∧
    decode (26#6 ++ b ++ n) = .jmp b n ∧ decode (27#6 ++ b ++ n) = .jsw b n ∧
    decode (28#6 ++ b ++ n) = .con b n ∧ decode (29#6 ++ b ++ n) = .dis b n ∧
    decode (30#6 ++ b ++ n) = .undef30 b n ∧ decode (31#6 ++ b ++ n) = .stl b n ∧
    decode (32#6 ++ b ++ n) = .lda b n ∧ decode (33#6 ++ b ++ n) = .ada b n ∧
    decode (34#6 ++ b ++ n) = .sba b n ∧ decode (35#6 ++ b ++ n) = .undef35 b n ∧
    decode (36#6 ++ b ++ n) = .asl b n ∧ decode (37#6 ++ b ++ n) = .asr b n ∧
    decode (38#6 ++ b ++ n) = .lsl b n ∧ decode (39#6 ++ b ++ n) = .lsr b n ∧
    decode (40#6 ++ b ++ n) = .lmc b n ∧ decode (41#6 ++ b ++ n) = .lmn b n ∧
    decode (42#6 ++ b ++ n) = .ldm b n ∧ decode (43#6 ++ b ++ n) = .adm b n ∧
    decode (44#6 ++ b ++ n) = .sbm b n ∧ decode (45#6 ++ b ++ n) = .asm b n ∧
    decode (46#6 ++ b ++ n) = .ssm b n ∧ decode (47#6 ++ b ++ n) = .xrm b n ∧
    decode (48#6 ++ b ++ n) = .anm b n ∧ decode (49#6 ++ b ++ n) = .xcm b n ∧
    decode (50#6 ++ b ++ n) = .undef50 b n ∧ decode (51#6 ++ b ++ n) = .std b n ∧
    decode (52#6 ++ b ++ n) = .ldd b n ∧ decode (53#6 ++ b ++ n) = .add b n ∧
    decode (54#6 ++ b ++ n) = .sbd b n ∧ decode (55#6 ++ b ++ n) = .lid b n ∧
    decode (56#6 ++ b ++ n) = .mul b n ∧ decode (57#6 ++ b ++ n) = .undef57 b n ∧
    decode (58#6 ++ b ++ n) = .undef58 b n ∧ decode (59#6 ++ b ++ n) = .xmd b n ∧
    decode (60#6 ++ b ++ n) = .ldv b n ∧ decode (61#6 ++ b ++ n) = .undef61 b n ∧
    decode (62#6 ++ b ++ n) = .undef62 b n ∧ decode (63#6 ++ b ++ n) = .undef63 b n

/-- R98, R114: the pending modifier moves the n field modulo 2^11 and never f or b, and it is consumed. -/
def Obligations.ModifierMovesOnlyN : Prop :=
  ∀ (st : State) (w : Word),
    fcode (st.beginOrder w).decoded = w.extractLsb' 14 6 ∧ bField (st.beginOrder w).decoded = w.extractLsb' 11 3 ∧
    (nField (st.beginOrder w).decoded).toNat =
      ((w.extractLsb' 0 11).toNat + (st.pm.getD 0).toNat) % 2048 ∧
    (st.beginOrder w).pm = none

/-! ### The step -/

/-- R113, R114, R115, R118, R120: a step that is not gated and whose counter is in range runs the order decoded from C
on the state with S and C loaded, CTR advanced (the spec's decision D1), the modifier consumed, the status saved and
cleared, and then emits PostOrder and the order's output event. -/
def Obligations.StepRunsTheDecodedOrder : Prop :=
  ∀ (st : State) (w : Word),
    st.stop ≠ some .absolute → st.stop ≠ some .irrecoverableOverflow →
    (st.sel = .boot ∧ st.boot[st.ctr.toNat]? = some w ∨
      st.sel = .main ∧ st.ctr.toNat < 512 ∧ st.main.read st.ctr.toNat = w) →
    let c' : OdWord := match st.pm with
      | none => w.setWidth 21
      | some x => 0#1 ++ w.extractLsb' 14 6 ++ w.extractLsb' 11 3 ++ (w.extractLsb' 0 11 + x)
    let t : State :=
      { st with
        s := w.signExtend 21, c := c', ctr := st.ctr + 1, pm := none
        saved := ⟨st.stop, st.ovf, st.unf⟩, stop := none, ovf := false, unf := false, hook := none }
    ∀ u, exec (decode (c'.extractLsb' 0 20)) t = .next u →
      step st = .next
        { u with events := u.events ++ [.postOrder] ++ u.hook.toList, hook := none, saved := ⟨none, false, false⟩ }

/-- R111, the spec's decision D24: after Absolute or IrrecoverableOverflow every further step is the identity, for
any number of steps. -/
def Obligations.FatalStopHoldsForever : Prop :=
  ∀ st : State, st.stop = some .absolute ∨ st.stop = some .irrecoverableOverflow →
    ∀ k : Nat, Sys2Proof.core.run k st = .next st

/-- R112: with the counter at or beyond the length of the selected store the step raises Absolute, emits Stopped if
STOP was none, and changes nothing else. That nothing is emitted when STOP was not none is the spec's decision D37
(log entry 12). -/
def Obligations.CounterCheckStops : Prop :=
  ∀ st : State, st.stop ≠ some .absolute → st.stop ≠ some .irrecoverableOverflow →
    (st.sel = .boot ∧ st.boot.length ≤ st.ctr.toNat ∨ st.sel = .main ∧ 512 ≤ st.ctr.toNat) →
    step st = .next
      { st with
        stop := some .absolute
        events := if st.stop = none then st.events ++ [.stopped .absolute] else st.events }

/-- R110 with R301: a step is a total function, so every order and every step answers a next state, in every state.
That a stop is a next state, with STOP written, and that no outcome is a fault or a refusal of the model, is the
model's choice (log entry 13, DESIGN CHOICE). -/
def Obligations.EveryStepAnswersNext : Prop :=
  (∀ (i : Instr) (st : State), ∃ t, exec i st = .next t) ∧ (∀ st : State, ∃ t, step st = .next t)

/-- R120, R302, the spec's decisions D27 and D37: a step that fetches appends to the events a Stopped event at most,
naming the reason it ends with, then PostOrder, then one output event at most, and never both. Without a Stopped
event STOP is none or as before the step (restored). -/
def Obligations.StepEventsInOrder : Prop :=
  ∀ (st t : State) (w : Word), st.halted = false → st.fetchWord = some w → step st = .next t →
    ∃ raised hooked : List Event,
      t.events = st.events ++ raised ++ [.postOrder] ++ hooked ∧
      (raised = [] ∧ (t.stop = none ∨ t.stop = st.stop) ∨ ∃ r, raised = [.stopped r] ∧ t.stop = some r) ∧
      (hooked = [] ∨ (∃ v, hooked = [.output v]) ∨ (∃ ch v, hooked = [.connect ch v]) ∨
        ∃ ch, hooked = [.disconnect ch]) ∧
      (raised = [] ∨ hooked = [])

/-- The invariant of Safety.lean is kept by every step from every state that has it: MAIN's canonical form (the
model's, log entry 1), the agreement of OVF, UNF and STOP (R305, R306), C[20] = 0 (R28, the spec's decision D33), V
in normal form (R32, its decision D4), and the end of the step's inner state (R40, held in State by log entry 6). -/
def Obligations.StepKeepsTheInvariant : Prop :=
  ∀ st t : State, Inv st → step st = .next t → Inv t

/-- The state after reset has the invariant. It rests on the reset values that R41 marks as the spec's own decision D21
(log entry 3), on the unlisted cell that reads as 0 (log entry 2), on the model's canonical form of MAIN (log entry 1,
DESIGN CHOICE) and on the model's empty within-step fields (log entry 6, DESIGN CHOICE). -/
def Obligations.ResetMeetsTheInvariant : Prop := Inv State.reset

/-- R41, R330: after reset CTR is 0, SEL is Boot and STOP is none, which the spec takes from its source. The other
values, zero, false and none, are the spec's decisions D21 and D23 (log entry 3, with the unlisted cell of log entry
2). That BOOT is an opaque constant is log entry 4. The last clause, the host's reset with the machine's own BOOT, a
fresh tape, OPTSTOP off and no event listed, rests on R333, which is the spec's decision D35, and on the model's
reading of it (log entry 17, DEDUCED). -/
def Obligations.ResetLeavesTheStatedValues : Prop :=
  State.reset.ctr = 0 ∧ State.reset.sel = .boot ∧ State.reset.stop = none ∧
  State.reset.ovf = false ∧ State.reset.unf = false ∧ State.reset.pm = none ∧ (∀ i, State.reset.getB i = 0) ∧
  State.reset.m = 0 ∧ State.reset.l = 0 ∧ State.reset.d = 0 ∧ State.reset.s = 0 ∧ State.reset.c = 0 ∧
  State.reset.v = 0 ∧ (∀ a, State.reset.main.read a = 0) ∧ State.reset.optstop = false ∧
  State.reset.boot = Config.boot ∧
  ∀ (st : State) (tape : List Nat), st.hostReset tape = { State.reset with boot := st.boot, tape := tape }

/-- R37, R39: no step changes BOOT or OPTSTOP, and no step removes an event. -/
def Obligations.StepKeepsBootAndSwitch : Prop :=
  ∀ st t : State, step st = .next t →
    t.boot = st.boot ∧ t.optstop = st.optstop ∧ ∃ more, t.events = st.events ++ more

/-- R37, R39, R155: the tape is read and consumed by order 10 only, OPTSTOP is read by order 0 only, and no order
reads BOOT. -/
def Obligations.InputsReachOnlyTheirOrders : Prop :=
  ∀ (i : Instr) (st t : State), exec i st = .next t →
    (∀ x, ¬codeIn i [10] → exec i { st with tape := x } = .next { t with tape := x }) ∧
    (∀ y, ¬codeIn i [0] → exec i { st with optstop := y } = .next { t with optstop := y }) ∧
    (∀ z, exec i { st with boot := z } = .next { t with boot := z })

/-! ### What the orders leave alone -/

/-- R66, R121, the spec's decision D25: an order that names a store address of 512 or more raises Absolute and
changes nothing else, for all thirty orders that name one. -/
def Obligations.InvalidDataAddressStops : Prop :=
  ∀ (i : Instr) (st : State) (a : Addr), dataAddress i st = some a → 512 ≤ a.toNat →
    exec i st = .next
      { st with
        stop := some .absolute
        events := if st.stop = none then st.events ++ [.stopped .absolute] else st.events }

/-- R38, R61, R68: an order changes no cell of MAIN but the one it names, and only orders 1, 9, 10, 31, 45, 46, 49
and 51 change that one. -/
def Obligations.OnlyTheAddressedCellChanges : Prop :=
  ∀ (i : Instr) (st t : State), exec i st = .next t →
    ∀ a : Nat, (codeIn i storingCodes → ∀ x, dataAddress i st = some x → a ≠ x.toNat) →
      t.main.read a = st.main.read a

/-- R20, R34: CTR is changed only by a jump order, to the target it names, and SEL only by order 27. -/
def Obligations.OnlyJumpsMoveCounterAndSelector : Prop :=
  ∀ (i : Instr) (st t : State), exec i st = .next t →
    (t.ctr = st.ctr ∨ jumpTarget i st = some t.ctr) ∧ (t.sel = st.sel ∨ codeIn i [27])

/-- R21: only orders 2 to 10, 14 and 15 write a B-register, and only the one their b field names. -/
def Obligations.OnlyBGroupWritesB : Prop :=
  ∀ (i : Instr) (st t : State) (j : BIndex), exec i st = .next t →
    t.getB j = st.getB j ∨ (codeIn i [2, 3, 4, 5, 6, 7, 8, 9, 10, 14, 15] ∧ j = bField i)

/-- Which orders may write M, L, D, V, S, PM, OVF, UNF and C (R23, R24, R26 to R29, R33, R35, with the order rules):
every other order leaves the register as it was. The within-step status is written by none. -/
def Obligations.OnlyTheirOrdersWriteTheRegisters : Prop :=
  ∀ (i : Instr) (st t : State), exec i st = .next t →
    (t.m = st.m ∨ codeIn i [32, 33, 34, 36, 37, 38, 39, 40, 41, 42, 43, 44, 47, 48, 49, 56, 59]) ∧
    (t.l = st.l ∨ codeIn i [32, 33, 34, 36, 37, 38, 39, 40, 56]) ∧
    (t.d = st.d ∨ codeIn i [52, 53, 54, 59]  ∨ codeIn i [55]) ∧
    (t.v = st.v ∨ codeIn i [60]) ∧
    (t.s = st.s ∨ dataAddress i st ≠ none) ∧
    (t.pm = st.pm ∨ codeIn i [16, 17]) ∧
    (t.ovf = st.ovf ∨ codeIn i [0, 16, 17, 33, 36, 37, 43, 44, 53, 54, 56]) ∧
    (t.unf = st.unf ∨ codeIn i [0, 16, 17, 34, 43, 44, 53, 54]) ∧
    (t.hook = st.hook ∨ codeIn i [20, 28, 29]) ∧
    t.c = st.c ∧ t.saved = st.saved

/-- R28, R29, R346: no order reads C or V. Changing them before an order changes nothing it does elsewhere, C keeps
what it was given, and V too but for order 60, which overwrites it when its address is valid. -/
def Obligations.NoOrderReadsCOrV : Prop :=
  ∀ (i : Instr) (st t : State) (x y : OdWord), exec i st = .next t →
    (¬codeIn i [60] → exec i { st with c := x, v := y } = .next { t with c := x, v := y }) ∧
    (codeIn i [60] → exec i { st with c := x } = .next { t with c := x }) ∧
    (codeIn i [60] → (st.ea (bField i) (nField i)).toNat < 512 →
      exec i { st with c := x, v := y } = .next { t with c := x })

/-- R40, R119, R341: the status of the previous order reaches orders 0, 16, 17, 24 and 25 and no other. -/
def Obligations.SavedStatusReachesFiveOrders : Prop :=
  ∀ (i : Instr) (st t : State) (x : Status), ¬codeIn i [0, 16, 17, 24, 25] → exec i st = .next t →
    exec i { st with saved := x } = .next { t with saved := x }

/-! ### Operands -/

/-- R116: EA is n when b is 0, else B[b] + n modulo 2^11, B[b] being read and not written. With a pending modifier x
the order fetched as w forms EA from the sum of B[b], its n field as stored and x. -/
def Obligations.EffectiveAddressIsBModified : Prop :=
  (∀ (st : State) (b : BIndex) (n : Addr),
    (st.ea b n).toNat = if b = 0 then n.toNat else ((st.getB b).toNat + n.toNat) % 2048) ∧
  (∀ (st : State) (w : Word) (x : Addr), st.pm = some x →
    let t := st.beginOrder w
    let n0 := (w.extractLsb' 0 11).toNat
    (∀ j, t.getB j = st.getB j) ∧
    (t.ea (bField t.decoded) (nField t.decoded)).toNat =
      if bField t.decoded = 0 then (n0 + x.toNat) % 2048
      else ((st.getB (bField t.decoded)).toNat + n0 + x.toNat) % 2048)

/-! ### B-register orders -/

/-- R141, order 1: the cell becomes B[b] zero-extended, S its mirror, and an invalid address stops. -/
def Obligations.StbStoresB : Prop :=
  ∀ (b : BIndex) (n : Addr) (st : State),
    toOrder (.stb b n) = ⟨1, b.toNat, n.toNat⟩ ∧
    (n.toNat < 512 → ∃ t, exec (.stb b n) st = .next t ∧
      CellWritten st t n.toNat (BitVec.ofNat 20 (st.getB b).toNat) ∧
      t = { st with s := BitVec.ofNat 21 (st.getB b).toNat, main := t.main }) ∧
    (512 ≤ n.toNat → ∃ t, exec (.stb b n) st = .next t ∧ t.stop = some .absolute)

/-- R142 and R144, orders 2 and 4: B[b] becomes the low 11 bits of the cell, or B[b] less the cell modulo 2^11. S
mirrors the cell, sign-extended by the spec's decision D4 (R32, log entry 12). An invalid address stops, and
InvalidDataAddressStops says that nothing else changes. -/
def Obligations.LdbAndSbbComputeInB : Prop :=
  ∀ (b : BIndex) (n : Addr) (st : State),
    let w := st.main.read n.toNat
    toOrder (.ldb b n) = ⟨2, b.toNat, n.toNat⟩ ∧ toOrder (.sbb b n) = ⟨4, b.toNat, n.toNat⟩ ∧
    (n.toNat < 512 →
      (∃ t, exec (.ldb b n) st = .next t ∧ BWritten st t b (BitVec.ofNat 11 w.toNat) ∧
        t = { st with s := w.signExtend 21, b := t.b }) ∧
      (∃ t, exec (.sbb b n) st = .next t ∧
        BWritten st t b (BitVec.ofInt 11 ((st.getB b).toNat - w.toNat : Int)) ∧
        t = { st with s := w.signExtend 21, b := t.b })) ∧
    (512 ≤ n.toNat →
      (∃ t, exec (.ldb b n) st = .next t ∧ t.stop = some .absolute) ∧
      (∃ t, exec (.sbb b n) st = .next t ∧ t.stop = some .absolute))

/-- R143 and R148, orders 3 and 8. That order 3 adds is the default of OP3_VARIANT (the spec's decision D6, log entry
10). That order 8 takes its operand from MAIN[n] is the spec's decision D7. -/
def Obligations.AdbAndAnbComputeInB : Prop :=
  ∀ (b : BIndex) (n : Addr) (st : State),
    let w := st.main.read n.toNat
    n.toNat < 512 →
      (∃ t, exec (.adb b n) st = .next t ∧ BWritten st t b (BitVec.ofInt 11 ((st.getB b).toNat + w.toInt)) ∧
        t = { st with s := w.signExtend 21, b := t.b }) ∧
      (∃ t, exec (.anb b n) st = .next t ∧
        (∀ j : Nat, (t.getB b).getLsbD j = ((st.getB b).getLsbD j && w.getLsbD j)) ∧
        (∀ j, j ≠ b → t.getB j = st.getB j) ∧
        t = { st with s := w.signExtend 21, b := t.b })

/-- R145, R146, R147, orders 5, 6 and 7: the immediate is loaded, added or subtracted modulo 2^11. There is no store
access, so S is as the fetch left it, and no stop. -/
def Obligations.ImmediateOrdersWriteB : Prop :=
  ∀ (b : BIndex) (n : Addr) (st : State),
    toOrder (.lib b n) = ⟨5, b.toNat, n.toNat⟩ ∧ toOrder (.aib b n) = ⟨6, b.toNat, n.toNat⟩ ∧
    toOrder (.sib b n) = ⟨7, b.toNat, n.toNat⟩ ∧
    (∃ t, exec (.lib b n) st = .next t ∧ BWritten st t b n ∧ t = { st with b := t.b }) ∧
    (∃ t, exec (.aib b n) st = .next t ∧
      BWritten st t b (BitVec.ofNat 11 (((st.getB b).toNat + n.toNat) % 2048)) ∧ t = { st with b := t.b }) ∧
    (∃ t, exec (.sib b n) st = .next t ∧
      BWritten st t b (BitVec.ofInt 11 ((st.getB b).toNat - n.toNat : Int)) ∧ t = { st with b := t.b })

/-- R149, order 9: the cell and B[b] change places, the cell's high 9 bits being lost. That S ends with the value
written is the spec's decision D38. -/
def Obligations.XcbExchangesCellAndB : Prop :=
  ∀ (b : BIndex) (n : Addr) (st : State), n.toNat < 512 →
    ∃ t, exec (.xcb b n) st = .next t ∧
      CellWritten st t n.toNat (BitVec.ofNat 20 (st.getB b).toNat) ∧
      BWritten st t b (BitVec.ofNat 11 (st.main.read n.toNat).toNat) ∧
      t = { st with s := BitVec.ofNat 21 (st.getB b).toNat, main := t.main, b := t.b }

/-- R150, order 10, with the code of R155 (the low 5 bits, D30, and 0 at the end of the tape): the code goes to B[b]
and to the cell, and the tape advances. An invalid address stops before the tape is advanced, and that nothing else
changes then is the spec's decision D25. -/
def Obligations.RdtReadsOneCode : Prop :=
  ∀ (b : BIndex) (n : Addr) (st : State) (code : Nat),
    (code = match st.tape with
      | [] => 0
      | x :: _ => x % 32) →
    (n.toNat < 512 → ∃ t, exec (.rdt b n) st = .next t ∧
      CellWritten st t n.toNat (BitVec.ofNat 20 code) ∧ BWritten st t b (BitVec.ofNat 11 code) ∧
      t = { st with s := BitVec.ofNat 21 code, main := t.main, b := t.b, tape := st.tape.tail }) ∧
    (512 ≤ n.toNat → exec (.rdt b n) st = .next (st.raiseStop .absolute))

/-- R152 and R151, orders 13 and 12: a jump to n if B[b] is not 0. Order 12 tests B[b] > 0 unsigned (the spec's
decision D31), so 0x400 to 0x7FF count as positive and it does the same. -/
def Obligations.BTestJumps : Prop :=
  ∀ (b : BIndex) (n : Addr) (st : State),
    ((st.getB b).toNat ≠ 0 →
      exec (.jbn b n) st = .next { st with ctr := n } ∧ exec (.jbp b n) st = .next { st with ctr := n }) ∧
    ((st.getB b).toNat = 0 → exec (.jbn b n) st = .next st ∧ exec (.jbp b n) st = .next st)

/-- R153 and R154, orders 14 and 15: B[b] is decremented modulo 2^11 by 1 or 2, written whether or not the jump is
taken, and the jump is taken when the result is not 0. -/
def Obligations.CountingJumpsDecrement : Prop :=
  ∀ (b : BIndex) (n : Addr) (st : State),
    toOrder (.dj1 b n) = ⟨14, b.toNat, n.toNat⟩ ∧ toOrder (.dj2 b n) = ⟨15, b.toNat, n.toNat⟩ ∧
    (∃ t, exec (.dj1 b n) st = .next t ∧ BWritten st t b (BitVec.ofInt 11 ((st.getB b).toNat - 1 : Int)) ∧
      t = { st with b := t.b, ctr := if (st.getB b).toNat = 1 then st.ctr else n }) ∧
    (∃ t, exec (.dj2 b n) st = .next t ∧ BWritten st t b (BitVec.ofInt 11 ((st.getB b).toNat - 2 : Int)) ∧
      t = { st with b := t.b, ctr := if (st.getB b).toNat = 2 then st.ctr else n })

/-! ### Control orders -/

/-- R170, order 0: Absolute on (0, 0, 0), Normal on (0, 0, n), Normal on b != 0 with OPTSTOP on, and otherwise the
saved status comes back with no event. -/
def Obligations.StopCheckResolves : Prop :=
  ∀ (b : BIndex) (n : Addr) (st : State),
    toOrder (.stop b n) = ⟨0, b.toNat, n.toNat⟩ ∧
    (b = 0 → n = 0 → exec (.stop b n) st = .next (st.raiseStop .absolute)) ∧
    (b = 0 → n ≠ 0 → exec (.stop b n) st = .next (st.raiseStop .normal)) ∧
    (b ≠ 0 → st.optstop = true → exec (.stop b n) st = .next (st.raiseStop .normal)) ∧
    (b ≠ 0 → st.optstop = false →
      exec (.stop b n) st = .next { st with stop := st.saved.stop, ovf := st.saved.ovf, unf := st.saved.unf })

/-- R171 and R172, orders 16 and 17: PM becomes EA, or the low 11 bits of MAIN[EA], and the saved status comes back.
That order 16 takes the address itself is the spec's decision D15. -/
def Obligations.ModifierOrdersSetPM : Prop :=
  ∀ (b : BIndex) (n : Addr) (st : State),
    exec (.mda b n) st = .next
      { st with pm := some (st.ea b n), stop := st.saved.stop, ovf := st.saved.ovf, unf := st.saved.unf } ∧
    ((st.ea b n).toNat < 512 →
      exec (.mds b n) st = .next
        { st with
          s := (st.main.read (st.ea b n).toNat).signExtend 21
          pm := some (BitVec.ofNat 11 (st.main.read (st.ea b n).toNat).toNat)
          stop := st.saved.stop, ovf := st.saved.ovf, unf := st.saved.unf })

/-- R173, R181, R182, orders 20, 28 and 29: the addressed cell as a signed number, with the parity of EA as the channel
(D18). The event is handed over for emission after PostOrder. Order 29 reads no cell and checks no range. -/
def Obligations.OutputOrdersHandOverEvents : Prop :=
  ∀ (b : BIndex) (n : Addr) (st : State),
    let w := st.main.read (st.ea b n).toNat
    ((st.ea b n).toNat < 512 →
      exec (.out b n) st = .next { st with s := w.signExtend 21, hook := some (.output w.toInt) } ∧
      ∀ ch : Fin 2, ch.val = (st.ea b n).toNat % 2 →
        exec (.con b n) st = .next { st with s := w.signExtend 21, hook := some (.connect ch w.toInt) }) ∧
    ∀ ch : Fin 2, ch.val = (st.ea b n).toNat % 2 →
      exec (.dis b n) st = .next { st with hook := some (.disconnect ch) }

/-- R174, R175, R176 with R25, orders 21, 22 and 23: a jump to EA when the accumulator value is below, above or not
zero. That M's overflow digit takes no part is the spec's decision D32, and that the target is EA its decision D16. -/
def Obligations.AccumulatorJumpsTestTheValue : Prop :=
  ∀ (b : BIndex) (n : Addr) (st : State),
    exec (.jan b n) st = .next { st with ctr := if accValue st < 0 then st.ea b n else st.ctr } ∧
    exec (.jap b n) st = .next { st with ctr := if 0 < accValue st then st.ea b n else st.ctr } ∧
    exec (.jaz b n) st = .next { st with ctr := if accValue st ≠ 0 then st.ea b n else st.ctr }

/-- R177 and R178, orders 24 and 25: a jump to EA when the previous order left UNF, or OVF, set. The flags and STOP
stay as R115 cleared them. That the target is EA is the spec's decision D16. -/
def Obligations.FlagJumpsReadTheSavedFlags : Prop :=
  ∀ (b : BIndex) (n : Addr) (st : State),
    (st.saved.unf = true → exec (.juf b n) st = .next { st with ctr := st.ea b n }) ∧
    (st.saved.unf = false → exec (.juf b n) st = .next st) ∧
    (st.saved.ovf = true → exec (.jof b n) st = .next { st with ctr := st.ea b n }) ∧
    (st.saved.ovf = false → exec (.jof b n) st = .next st)

/-- R179 and R180, orders 26 and 27: the jump to EA, and with order 27 the toggle of SEL. That the target is EA is the
spec's decision D16 (log entry 12). -/
def Obligations.UnconditionalJumps : Prop :=
  ∀ (b : BIndex) (n : Addr) (st : State),
    toOrder (.jmp b n) = ⟨26, b.toNat, n.toNat⟩ ∧ toOrder (.jsw b n) = ⟨27, b.toNat, n.toNat⟩ ∧
    exec (.jmp b n) st = .next { st with ctr := st.ea b n } ∧
    (st.sel = .boot → exec (.jsw b n) st = .next { st with ctr := st.ea b n, sel := .main }) ∧
    (st.sel = .main → exec (.jsw b n) st = .next { st with ctr := st.ea b n, sel := .boot })

/-- R183, R96, the spec's decision D20: each of the eleven undefined codes raises Absolute and changes nothing else,
whatever b and n are. That is the whole effect the spec gives them. -/
def Obligations.UndefinedCodesStop : Prop :=
  ∀ (b : BIndex) (n : Addr) (st t : State),
    t = { st with
          stop := some .absolute
          events := if st.stop = none then st.events ++ [.stopped .absolute] else st.events } →
    exec (.undef11 b n) st = .next t ∧ exec (.undef18 b n) st = .next t ∧ exec (.undef19 b n) st = .next t ∧
    exec (.undef30 b n) st = .next t ∧ exec (.undef35 b n) st = .next t ∧ exec (.undef50 b n) st = .next t ∧
    exec (.undef57 b n) st = .next t ∧ exec (.undef58 b n) st = .next t ∧ exec (.undef61 b n) st = .next t ∧
    exec (.undef62 b n) st = .next t ∧ exec (.undef63 b n) st = .next t

/-! ### Double-length accumulator orders -/

/-- R201, order 31: the cell becomes L zero-extended, bit 19 being 0, and an invalid address stops. -/
def Obligations.StlStoresL : Prop :=
  ∀ (b : BIndex) (n : Addr) (st : State),
    toOrder (.stl b n) = ⟨31, b.toNat, n.toNat⟩ ∧
    ((st.ea b n).toNat < 512 → ∃ t, exec (.stl b n) st = .next t ∧
      CellWritten st t (st.ea b n).toNat (BitVec.ofNat 20 st.l.toNat) ∧
      t = { st with s := BitVec.ofNat 21 st.l.toNat, main := t.main }) ∧
    (512 ≤ (st.ea b n).toNat → ∃ t, exec (.stl b n) st = .next t ∧ t.stop = some .absolute)

/-- R202, order 32: L takes the low 19 bits and M 21 copies of the sign, so the accumulator holds the word's signed
value. That S is the cell sign-extended is the spec's decision D4 (R32, log entry 12). An invalid address stops, and
InvalidDataAddressStops says that nothing else changes. -/
def Obligations.LdaSignExtends : Prop :=
  ∀ (b : BIndex) (n : Addr) (st : State),
    let w := st.main.read (st.ea b n).toNat
    toOrder (.lda b n) = ⟨32, b.toNat, n.toNat⟩ ∧
    ((st.ea b n).toNat < 512 → ∃ t, exec (.lda b n) st = .next t ∧
      t.l = BitVec.ofNat 19 w.toNat ∧ t.m = (if w.getLsbD 19 then 0x1FFFFF#21 else 0x000000#21) ∧
      (t.m ++ t.l).toInt = w.toInt ∧ NormalForm t.m ∧
      t = { st with s := w.signExtend 21, m := t.m, l := t.l }) ∧
    (512 ≤ (st.ea b n).toNat → ∃ t, exec (.lda b n) st = .next t ∧ t.stop = some .absolute)

/-- R203 with R205, order 33 under the default SIGNBIT_WEIGHT (D8, log entry 11): the accumulator becomes
A + zext_40(s) modulo 2^40, and the change of M's sign digit from 0 to 1 sets OVF and raises RecoverableOverflow
(D12) with the result kept. -/
def Obligations.AdaAddsTheWord : Prop :=
  ∀ (b : BIndex) (n : Addr) (st : State), (st.ea b n).toNat < 512 →
    let w := st.main.read (st.ea b n).toNat
    let sum : Acc := BitVec.ofNat 40 ((st.m ++ st.l).toNat + w.toNat)
    let t : State := { st with s := w.signExtend 21, m := accHigh sum, l := accLow sum }
    exec (.ada b n) st = .next
      (if st.m.getLsbD 19 = false ∧ sum.getLsbD 38 = true then
        { t with ovf := true }.raiseStop .recoverableOverflow
      else t)

/-- R204 with R205, order 34 under the default SIGNBIT_WEIGHT (D8, log entry 11): the accumulator becomes
A - zext_40(s) modulo 2^40, and the change of M's sign digit from 1 to 0 sets UNF and raises RecoverableOverflow
(D12) with the result kept. -/
def Obligations.SbaSubtractsTheWord : Prop :=
  ∀ (b : BIndex) (n : Addr) (st : State), (st.ea b n).toNat < 512 →
    let w := st.main.read (st.ea b n).toNat
    let diff : Acc := BitVec.ofInt 40 ((st.m ++ st.l).toNat - w.toNat : Int)
    let t : State := { st with s := w.signExtend 21, m := accHigh diff, l := accLow diff }
    exec (.sba b n) st = .next
      (if st.m.getLsbD 19 = true ∧ diff.getLsbD 38 = false then
        { t with unf := true }.raiseStop .recoverableOverflow
      else t)

/-- R205: the split add and subtract are one 40-bit operation under either setting of SIGNBIT_WEIGHT, the operand
zero-extended under +1 and sign-extended under -1. -/
def Obligations.SplitArithmeticIsFortyBit : Prop :=
  ∀ (m : OdWord) (l : Low) (w : Word),
    (addHigh .plusOne m l w ++ addLow l w : Acc) = (m ++ l : Acc) + w.setWidth 40 ∧
    (subHigh .plusOne m l w ++ subLow l w : Acc) = (m ++ l : Acc) - w.setWidth 40 ∧
    (addHigh .minusOne m l w ++ addLow l w : Acc) = (m ++ l : Acc) + w.signExtend 40 ∧
    (subHigh .minusOne m l w ++ subLow l w : Acc) = (m ++ l : Acc) - w.signExtend 40

/-- R205 (a): order 33 and then order 34 on the same cell restore M and L bit for bit, whatever the flags did, and
leave B, D, V and MAIN alone. -/
def Obligations.AddThenSubtractRestores : Prop :=
  ∀ (b : BIndex) (n : Addr) (st : State), (st.ea b n).toNat < 512 →
    ∃ t u, exec (.ada b n) st = .next t ∧ exec (.sba b n) t = .next u ∧
      u.m = st.m ∧ u.l = st.l ∧ u.b = st.b ∧ u.d = st.d ∧ u.v = st.v ∧ u.main = st.main

/-! ### Shifts -/

/-- R222 with R221, R226, R227: order 36 with count k and order 37 with count -k. Up to 39 places the accumulator
becomes A * 2^k modulo 2^40 and bits are lost exactly when the product leaves the signed 40-bit range. From 40 places it
becomes the sign fill, and bits are lost exactly when it was not that already (D10). A loss sets OVF (D11) and raises
RecoverableOverflow, the result being kept. The sign is A[39] (D9). -/
def Obligations.ArithmeticLeftShift : Prop :=
  ∀ (b : BIndex) (n : Addr) (st : State) (k : Nat), 1 ≤ k →
    let a : Acc := st.m ++ st.l
    let fill : Acc := if a.toInt < 0 then BitVec.allOnes 40 else 0
    let value : Acc := if k ≤ 39 then BitVec.ofInt 40 (a.toInt * 2 ^ k) else fill
    let lost : Prop := (k ≤ 39 ∧ (a.toInt * 2 ^ k < -2 ^ 39 ∨ 2 ^ 39 ≤ a.toInt * 2 ^ k)) ∨ (40 ≤ k ∧ a ≠ fill)
    let t : State := { st with m := accHigh value, l := accLow value }
    ((n.toInt = k ∧ lost) → exec (.asl b n) st = .next ({ t with ovf := true }.raiseStop .recoverableOverflow)) ∧
    ((n.toInt = k ∧ ¬lost) → exec (.asl b n) st = .next t) ∧
    ((n.toInt = -k ∧ lost) → exec (.asr b n) st = .next ({ t with ovf := true }.raiseStop .recoverableOverflow)) ∧
    ((n.toInt = -k ∧ ¬lost) → exec (.asr b n) st = .next t)

/-- R223 with R221, R226, R227: order 37 with count k and order 36 with count -k. The accumulator becomes the floor of
the signed quotient by 2^k, which for 40 places and more is the sign fill, with no flag and no stop (D10). A count of
0 changes nothing in either order. -/
def Obligations.ArithmeticRightShift : Prop :=
  ∀ (b : BIndex) (n : Addr) (st : State),
    (∀ k : Nat, 1 ≤ k →
      let value : Acc := BitVec.ofInt 40 ((st.m ++ st.l).toInt / 2 ^ k)
      let t : State := { st with m := accHigh value, l := accLow value }
      (n.toInt = k → exec (.asr b n) st = .next t) ∧ (n.toInt = -k → exec (.asl b n) st = .next t)) ∧
    (n = 0 → exec (.asr b n) st = .next st ∧ exec (.asl b n) st = .next st)

/-- R224, R225 with R221, orders 38 and 39: the accumulator becomes A * 2^k modulo 2^40, or the floor of A / 2^k, A
read as unsigned, which for 40 places and more is 0. A negative count exchanges the two, 0 changes nothing, and there
is no flag and no stop. That the count is the signed n field itself, whatever b is, is the spec's decision D17 (R220,
log entry 12). -/
def Obligations.LogicalShifts : Prop :=
  ∀ (b : BIndex) (n : Addr) (st : State),
    toOrder (.lsl b n) = ⟨38, b.toNat, n.toNat⟩ ∧ toOrder (.lsr b n) = ⟨39, b.toNat, n.toNat⟩ ∧
    (∀ k : Nat, 1 ≤ k →
      let left : Acc := BitVec.ofNat 40 ((st.m ++ st.l).toNat * 2 ^ k)
      let right : Acc := BitVec.ofNat 40 ((st.m ++ st.l).toNat / 2 ^ k)
      let t : State := { st with m := accHigh left, l := accLow left }
      let u : State := { st with m := accHigh right, l := accLow right }
      (n.toInt = k → exec (.lsl b n) st = .next t ∧ exec (.lsr b n) st = .next u) ∧
      (n.toInt = -k → exec (.lsl b n) st = .next u ∧ exec (.lsr b n) st = .next t)) ∧
    (n = 0 → exec (.lsl b n) st = .next st ∧ exec (.lsr b n) st = .next st)

/-- R230 (a): for every count but -1024, order 36 with count k does what order 37 does with count -k, and so do
orders 38 and 39, whatever their b fields are. -/
def Obligations.ShiftDirectionsAreMirrors : Prop :=
  ∀ (b b' : BIndex) (n : Addr) (st : State), n ≠ 1024#11 →
    exec (.asl b n) st = exec (.asr b' (-n)) st ∧ exec (.lsl b n) st = exec (.lsr b' (-n)) st

/-- R230 (b): left by 19 and then right by 19 restores the state with no flag, for the arithmetic pair on every
accumulator with -2^20 <= A < 2^20, for the logical pair on every A below 2^21. -/
def Obligations.ShiftBy19AndBackRestores : Prop :=
  ∀ (b b' : BIndex) (st : State),
    (-2 ^ 20 ≤ (st.m ++ st.l).toInt → (st.m ++ st.l).toInt < 2 ^ 20 →
      ∃ t, exec (.asl b 19) st = .next t ∧ exec (.asr b' 19) t = .next st) ∧
    ((st.m ++ st.l).toNat < 2 ^ 21 →
      ∃ t, exec (.lsl b 19) st = .next t ∧ exec (.lsr b' 19) t = .next st)

/-! ### Orders on M -/

/-- R253, R281 and R287, orders 42, 52 and 60: the register takes the 21-bit pattern of the cell's signed value, so it
holds that value in normal form. The sign extension of the load, and with it the normal form, is the spec's decision
D4 (R32), and that order 42 loads M and leaves L, read literally, its decision D19 (log entry 12). R287's "No order
reads V" is NoOrderReadsCOrV. An invalid address stops, and InvalidDataAddressStops says that nothing else changes. -/
def Obligations.LoadsTakeTheSignedWord : Prop :=
  ∀ (b : BIndex) (n : Addr) (st : State),
    let w := st.main.read (st.ea b n).toNat
    toOrder (.ldm b n) = ⟨42, b.toNat, n.toNat⟩ ∧ toOrder (.ldd b n) = ⟨52, b.toNat, n.toNat⟩ ∧
    toOrder (.ldv b n) = ⟨60, b.toNat, n.toNat⟩ ∧
    ((st.ea b n).toNat < 512 → ∃ x : OdWord,
      x.toInt = w.toInt ∧ (x.extractLsb' 0 20).toInt = w.toInt ∧ NormalForm x ∧
      exec (.ldm b n) st = .next { st with s := x, m := x } ∧
      exec (.ldd b n) st = .next { st with s := x, d := x } ∧
      exec (.ldv b n) st = .next { st with s := x, v := x }) ∧
    (512 ≤ (st.ea b n).toNat →
      (∃ t, exec (.ldm b n) st = .next t ∧ t.stop = some .absolute) ∧
      (∃ t, exec (.ldd b n) st = .next t ∧ t.stop = some .absolute) ∧
      ∃ t, exec (.ldv b n) st = .next t ∧ t.stop = some .absolute)

/-- R251 and R252, the spec's decision D19: order 40 reads the cell and clears the accumulator, and order 41 does in
every state what order 42 does. -/
def Obligations.LmcClearsAndLmnLoads : Prop :=
  ∀ (b : BIndex) (n : Addr) (st : State),
    exec (.lmn b n) st = exec (.ldm b n) st ∧
    ((st.ea b n).toNat < 512 → ∃ x : OdWord, x.toInt = (st.main.read (st.ea b n).toNat).toInt ∧
      exec (.lmc b n) st = .next { st with s := x, m := 0, l := 0 } ∧
      exec (.lmn b n) st = .next { st with s := x, m := x })

/-- R254, R255 with R250, orders 43 and 44: M takes the 21-bit pattern of the exact sum or difference. Above 2^19 - 1
OVF is set and below -2^19 UNF, each with RecoverableOverflow (D13). -/
def Obligations.SingleAddOnM : Prop :=
  ∀ (b : BIndex) (n : Addr) (st : State), (st.ea b n).toNat < 512 →
    let w := st.main.read (st.ea b n).toNat
    let result := fun x : Int =>
      let t : State := { st with s := w.signExtend 21, m := BitVec.ofInt 21 x }
      if 2 ^ 19 - 1 < x then { t with ovf := true }.raiseStop .recoverableOverflow
      else if x < -2 ^ 19 then { t with unf := true }.raiseStop .recoverableOverflow
      else t
    exec (.adm b n) st = .next (result ((st.m.extractLsb' 0 20).toInt + w.toInt)) ∧
    exec (.sbm b n) st = .next (result ((st.m.extractLsb' 0 20).toInt - w.toInt))

/-- R282, R283 with R250, orders 53 and 54: as orders 43 and 44, on D (D13). -/
def Obligations.SingleAddOnD : Prop :=
  ∀ (b : BIndex) (n : Addr) (st : State), (st.ea b n).toNat < 512 →
    let w := st.main.read (st.ea b n).toNat
    let result := fun x : Int =>
      let t : State := { st with s := w.signExtend 21, d := BitVec.ofInt 21 x }
      if 2 ^ 19 - 1 < x then { t with ovf := true }.raiseStop .recoverableOverflow
      else if x < -2 ^ 19 then { t with unf := true }.raiseStop .recoverableOverflow
      else t
    exec (.add b n) st = .next (result ((st.d.extractLsb' 0 20).toInt + w.toInt)) ∧
    exec (.sbd b n) st = .next (result ((st.d.extractLsb' 0 20).toInt - w.toInt))

/-- R256 and R257, orders 45 and 46: S takes the 21-bit pattern of the exact sum or difference, the cell its low 20
bits, and a result outside -2^19 .. 2^19 - 1 raises IrrecoverableOverflow after the cell is written, with no flag
(D14). -/
def Obligations.AddMIntoTheStore : Prop :=
  ∀ (b : BIndex) (n : Addr) (st : State) (x : Int), (st.ea b n).toNat < 512 →
    let a := (st.ea b n).toNat
    let result := fun t : State =>
      if x < -2 ^ 19 ∨ 2 ^ 19 - 1 < x then t.raiseStop .irrecoverableOverflow else t
    (x = (st.main.read a).toInt + (st.m.extractLsb' 0 20).toInt →
      ∃ t, CellWritten st t a (BitVec.ofInt 20 x) ∧ t = { st with s := BitVec.ofInt 21 x, main := t.main } ∧
        exec (.asm b n) st = .next (result t)) ∧
    (x = (st.main.read a).toInt - (st.m.extractLsb' 0 20).toInt →
      ∃ t, CellWritten st t a (BitVec.ofInt 20 x) ∧ t = { st with s := BitVec.ofInt 21 x, main := t.main } ∧
        exec (.ssm b n) st = .next (result t))

/-- R258 and R259, orders 47 and 48: bit by bit over the 21 bits of M and of the sign-extended cell, bit 20 of which
is the cell's bit 19 (D4). No overflow check is made. -/
def Obligations.LogicOnM : Prop :=
  ∀ (b : BIndex) (n : Addr) (st : State), (st.ea b n).toNat < 512 →
    let w := st.main.read (st.ea b n).toNat
    let operand := fun j : Nat => if j < 20 then w.getLsbD j else w.getLsbD 19
    (∃ t, exec (.xrm b n) st = .next t ∧ t = { st with s := w.signExtend 21, m := t.m } ∧
      ∀ j, j < 21 → t.m.getLsbD j = (st.m.getLsbD j != operand j)) ∧
    (∃ t, exec (.anm b n) st = .next t ∧ t = { st with s := w.signExtend 21, m := t.m } ∧
      ∀ j, j < 21 → t.m.getLsbD j = (st.m.getLsbD j && operand j))

/-- R260, order 49: M and the cell change places, S ends with M's old 21 bits (D38), and an M out of normal form
raises IrrecoverableOverflow after both sides are written, with no flag (D14). -/
def Obligations.XcmExchangesCellAndM : Prop :=
  ∀ (b : BIndex) (n : Addr) (st : State), (st.ea b n).toNat < 512 →
    ∃ t, CellWritten st t (st.ea b n).toNat (st.m.extractLsb' 0 20) ∧
      t = { st with s := st.m, m := (st.main.read (st.ea b n).toNat).signExtend 21, main := t.main } ∧
      (NormalForm st.m → exec (.xcm b n) st = .next t) ∧
      (¬NormalForm st.m → exec (.xcm b n) st = .next (t.raiseStop .irrecoverableOverflow))

/-! ### Orders on D -/

/-- R280, order 51: the cell takes D's low 20 bits, S all 21, and a D out of normal form raises IrrecoverableOverflow
after the cell is written (D14). -/
def Obligations.StdStoresD : Prop :=
  ∀ (b : BIndex) (n : Addr) (st : State), (st.ea b n).toNat < 512 →
    ∃ t, CellWritten st t (st.ea b n).toNat (st.d.extractLsb' 0 20) ∧
      t = { st with s := st.d, main := t.main } ∧
      (NormalForm st.d → exec (.std b n) st = .next t) ∧
      (¬NormalForm st.d → exec (.std b n) st = .next (t.raiseStop .irrecoverableOverflow))

/-- R284 and R286, orders 55 and 59: D takes the unsigned immediate, n not being B-modified (D17), and M and D
exchange their 21-bit patterns. -/
def Obligations.LidAndXmdWriteD : Prop :=
  ∀ (b : BIndex) (n : Addr) (st : State),
    (∃ t, exec (.lid b n) st = .next t ∧ t.d.toNat = n.toNat ∧ t = { st with d := t.d }) ∧
    (∃ t, exec (.xmd b n) st = .next t ∧ t.m = st.d ∧ t.d = st.m ∧ t = { st with m := t.m, d := t.d })

/-- R285, order 56: the accumulator takes the exact product of the cell and val(D) as a 40-bit number. Only the
product 2^38 leaves M out of normal form, and it sets OVF and raises RecoverableOverflow (D13). -/
def Obligations.MulIsExact : Prop :=
  ∀ (b : BIndex) (n : Addr) (st : State), (st.ea b n).toNat < 512 →
    let w := st.main.read (st.ea b n).toNat
    let p := w.toInt * (st.d.extractLsb' 0 20).toInt
    ∃ t : State, (t.m ++ t.l).toInt = p ∧ -2 ^ 38 + 2 ^ 19 ≤ p ∧ p ≤ 2 ^ 38 ∧
      t = { st with s := w.signExtend 21, m := t.m, l := t.l } ∧
      (p = 2 ^ 38 → exec (.mul b n) st = .next ({ t with ovf := true }.raiseStop .recoverableOverflow)) ∧
      (p ≠ 2 ^ 38 → NormalForm t.m ∧ exec (.mul b n) st = .next t)
end

