-- ==== Sys2Proof/Laws/PerInstr.lean ====
section
/-! SUPPORT. The statement made of every order as syntax: where the encoder puts its three fields (R90, R92). One
lemma per constructor of Instr. -/

namespace Sys2Proof.Laws.EncodedFields

/-- The function code, the b field and the n field stand in bits 19:14, 13:11 and 10:0 of the encoded word. -/
def Statement (i : Instr) : Prop :=
  fieldF (encode i) = fcode i ∧ fieldB (encode i) = bField i ∧ fieldN (encode i) = nField i

/-- The three fields of a word packed from three fields. -/
theorem fields_of_append (f : FCode) (b : BIndex) (n : Addr) :
    fieldF (f ++ b ++ n) = f ∧ fieldB (f ++ b ++ n) = b ∧ fieldN (f ++ b ++ n) = n := by
  refine ⟨?_, ?_, ?_⟩ <;> apply BitVec.eq_of_getLsbD_eq <;> intro k hk <;>
    simp [fieldF, fieldB, fieldN, hk] <;> grind

theorem stop (b : BIndex) (n : Addr) : Statement (.stop b n) := fields_of_append 0#6 b n
theorem stb (b : BIndex) (n : Addr) : Statement (.stb b n) := fields_of_append 1#6 b n
theorem ldb (b : BIndex) (n : Addr) : Statement (.ldb b n) := fields_of_append 2#6 b n
theorem adb (b : BIndex) (n : Addr) : Statement (.adb b n) := fields_of_append 3#6 b n
theorem sbb (b : BIndex) (n : Addr) : Statement (.sbb b n) := fields_of_append 4#6 b n
theorem lib (b : BIndex) (n : Addr) : Statement (.lib b n) := fields_of_append 5#6 b n
theorem aib (b : BIndex) (n : Addr) : Statement (.aib b n) := fields_of_append 6#6 b n
theorem sib (b : BIndex) (n : Addr) : Statement (.sib b n) := fields_of_append 7#6 b n
theorem anb (b : BIndex) (n : Addr) : Statement (.anb b n) := fields_of_append 8#6 b n
theorem xcb (b : BIndex) (n : Addr) : Statement (.xcb b n) := fields_of_append 9#6 b n
theorem rdt (b : BIndex) (n : Addr) : Statement (.rdt b n) := fields_of_append 10#6 b n
theorem undef11 (b : BIndex) (n : Addr) : Statement (.undef11 b n) := fields_of_append 11#6 b n
theorem jbp (b : BIndex) (n : Addr) : Statement (.jbp b n) := fields_of_append 12#6 b n
theorem jbn (b : BIndex) (n : Addr) : Statement (.jbn b n) := fields_of_append 13#6 b n
theorem dj1 (b : BIndex) (n : Addr) : Statement (.dj1 b n) := fields_of_append 14#6 b n
theorem dj2 (b : BIndex) (n : Addr) : Statement (.dj2 b n) := fields_of_append 15#6 b n
theorem mda (b : BIndex) (n : Addr) : Statement (.mda b n) := fields_of_append 16#6 b n
theorem mds (b : BIndex) (n : Addr) : Statement (.mds b n) := fields_of_append 17#6 b n
theorem undef18 (b : BIndex) (n : Addr) : Statement (.undef18 b n) := fields_of_append 18#6 b n
theorem undef19 (b : BIndex) (n : Addr) : Statement (.undef19 b n) := fields_of_append 19#6 b n
theorem out (b : BIndex) (n : Addr) : Statement (.out b n) := fields_of_append 20#6 b n
theorem jan (b : BIndex) (n : Addr) : Statement (.jan b n) := fields_of_append 21#6 b n
theorem jap (b : BIndex) (n : Addr) : Statement (.jap b n) := fields_of_append 22#6 b n
theorem jaz (b : BIndex) (n : Addr) : Statement (.jaz b n) := fields_of_append 23#6 b n
theorem juf (b : BIndex) (n : Addr) : Statement (.juf b n) := fields_of_append 24#6 b n
theorem jof (b : BIndex) (n : Addr) : Statement (.jof b n) := fields_of_append 25#6 b n
theorem jmp (b : BIndex) (n : Addr) : Statement (.jmp b n) := fields_of_append 26#6 b n
theorem jsw (b : BIndex) (n : Addr) : Statement (.jsw b n) := fields_of_append 27#6 b n
theorem con (b : BIndex) (n : Addr) : Statement (.con b n) := fields_of_append 28#6 b n
theorem dis (b : BIndex) (n : Addr) : Statement (.dis b n) := fields_of_append 29#6 b n
theorem undef30 (b : BIndex) (n : Addr) : Statement (.undef30 b n) := fields_of_append 30#6 b n
theorem stl (b : BIndex) (n : Addr) : Statement (.stl b n) := fields_of_append 31#6 b n
theorem lda (b : BIndex) (n : Addr) : Statement (.lda b n) := fields_of_append 32#6 b n
theorem ada (b : BIndex) (n : Addr) : Statement (.ada b n) := fields_of_append 33#6 b n
theorem sba (b : BIndex) (n : Addr) : Statement (.sba b n) := fields_of_append 34#6 b n
theorem undef35 (b : BIndex) (n : Addr) : Statement (.undef35 b n) := fields_of_append 35#6 b n
theorem asl (b : BIndex) (n : Addr) : Statement (.asl b n) := fields_of_append 36#6 b n
theorem asr (b : BIndex) (n : Addr) : Statement (.asr b n) := fields_of_append 37#6 b n
theorem lsl (b : BIndex) (n : Addr) : Statement (.lsl b n) := fields_of_append 38#6 b n
theorem lsr (b : BIndex) (n : Addr) : Statement (.lsr b n) := fields_of_append 39#6 b n
theorem lmc (b : BIndex) (n : Addr) : Statement (.lmc b n) := fields_of_append 40#6 b n
theorem lmn (b : BIndex) (n : Addr) : Statement (.lmn b n) := fields_of_append 41#6 b n
theorem ldm (b : BIndex) (n : Addr) : Statement (.ldm b n) := fields_of_append 42#6 b n
theorem adm (b : BIndex) (n : Addr) : Statement (.adm b n) := fields_of_append 43#6 b n
theorem sbm (b : BIndex) (n : Addr) : Statement (.sbm b n) := fields_of_append 44#6 b n
theorem asm (b : BIndex) (n : Addr) : Statement (.asm b n) := fields_of_append 45#6 b n
theorem ssm (b : BIndex) (n : Addr) : Statement (.ssm b n) := fields_of_append 46#6 b n
theorem xrm (b : BIndex) (n : Addr) : Statement (.xrm b n) := fields_of_append 47#6 b n
theorem anm (b : BIndex) (n : Addr) : Statement (.anm b n) := fields_of_append 48#6 b n
theorem xcm (b : BIndex) (n : Addr) : Statement (.xcm b n) := fields_of_append 49#6 b n
theorem undef50 (b : BIndex) (n : Addr) : Statement (.undef50 b n) := fields_of_append 50#6 b n
theorem std (b : BIndex) (n : Addr) : Statement (.std b n) := fields_of_append 51#6 b n
theorem ldd (b : BIndex) (n : Addr) : Statement (.ldd b n) := fields_of_append 52#6 b n
theorem add (b : BIndex) (n : Addr) : Statement (.add b n) := fields_of_append 53#6 b n
theorem sbd (b : BIndex) (n : Addr) : Statement (.sbd b n) := fields_of_append 54#6 b n
theorem lid (b : BIndex) (n : Addr) : Statement (.lid b n) := fields_of_append 55#6 b n
theorem mul (b : BIndex) (n : Addr) : Statement (.mul b n) := fields_of_append 56#6 b n
theorem undef57 (b : BIndex) (n : Addr) : Statement (.undef57 b n) := fields_of_append 57#6 b n
theorem undef58 (b : BIndex) (n : Addr) : Statement (.undef58 b n) := fields_of_append 58#6 b n
theorem xmd (b : BIndex) (n : Addr) : Statement (.xmd b n) := fields_of_append 59#6 b n
theorem ldv (b : BIndex) (n : Addr) : Statement (.ldv b n) := fields_of_append 60#6 b n
theorem undef61 (b : BIndex) (n : Addr) : Statement (.undef61 b n) := fields_of_append 61#6 b n
theorem undef62 (b : BIndex) (n : Addr) : Statement (.undef62 b n) := fields_of_append 62#6 b n
theorem undef63 (b : BIndex) (n : Addr) : Statement (.undef63 b n) := fields_of_append 63#6 b n

end Sys2Proof.Laws.EncodedFields
end

