-- ==== Sys2Proof/Laws/Decode.lean ====
section
/-! SUPPORT. Small laws of the decoder and of the written form: the table has an entry for every code, the decoder is
the table at the three fields, and every order of the syntax is well formed. -/

namespace Sys2Proof

theorem orderTable_length : orderTable.length = 64 := by decide

/-- Every order of the syntax is well formed: the widths of its fields are those of R90. -/
theorem Laws.WellFormedOrder (i : Instr) : i.wf = true := by
  have hf := (fcode i).isLt
  have hb := (bField i).isLt
  have hn := (nField i).isLt
  have h1 : (toOrder i).codeInRange = true := decide_eq_true (show (fcode i).toNat ≤ 63 by omega)
  have h2 : (toOrder i).indexInRange = true := decide_eq_true (show (bField i).toNat ≤ 7 by omega)
  have h3 : (toOrder i).addressInRange = true := decide_eq_true (show (nField i).toNat ≤ 2047 by omega)
  simp only [Instr.wf, Order.wf, h1, h2, h3, Bool.and_self]

/-- The decoder at a word packed from three fields. -/
theorem decode_append (f : FCode) (b : BIndex) (n : Addr) : decode (f ++ b ++ n) = ofFields f b n := by
  obtain ⟨hf, hb, hn⟩ := Laws.EncodedFields.fields_of_append f b n
  simp only [decode, hf, hb, hn]

/-- A word is its three fields packed together. -/
theorem append_fields (w : Word) : (fieldF w ++ fieldB w ++ fieldN w : Word) = w := by
  apply BitVec.eq_of_getLsbD_eq
  intro k hk
  simp only [fieldF, fieldB, fieldN, BitVec.getLsbD_append, BitVec.getLsbD_extractLsb']
  grind

end Sys2Proof
end

