-- ==== Sys2Proof/Laws/Memory.lean ====
section
/-! SUPPORT. The laws of the main store: a read after a write, and the canonical form, which every write keeps. The
read laws hold of every list of cells, canonical or not. -/

namespace Sys2Proof.Machine

@[simp] theorem Memory.read_nil (a : Nat) : Memory.read [] a = Memory.unlisted := rfl

@[simp] theorem Memory.read_cons (k : Nat) (w : Word) (m : Memory) (a : Nat) :
    Memory.read ((k, w) :: m) a = if k = a then w else Memory.read m a := rfl

/-- A cell that no entry names reads as the unlisted value. -/
theorem Memory.read_of_not_listed (m : Memory) (a : Nat) (h : ∀ x ∈ m, x.1 ≠ a) :
    Memory.read m a = Memory.unlisted := by
  induction m with
  | nil => rfl
  | cons e rest ih =>
    obtain ⟨k, w⟩ := e
    have hk : k ≠ a := h (k, w) (by simp)
    rw [Memory.read_cons, if_neg hk, ih fun x hx => h x (by simp [hx])]

/-- Leaving out the entries of one cell changes no other cell. -/
theorem Memory.read_filter_other (m : Memory) (a x : Nat) (h : x ≠ a) :
    Memory.read (m.filter fun e => e.1 != a) x = Memory.read m x := by
  induction m with
  | nil => rfl
  | cons e rest ih =>
    obtain ⟨k, w⟩ := e
    by_cases hk : k = a
    · subst hk
      simp [ih, Ne.symm h]
    · simp [hk, ih]

theorem Memory.read_insert_other (m : Memory) (a x : Nat) (w : Word) (h : x ≠ a) :
    Memory.read (Memory.insert m a w) x = Memory.read m x := by
  induction m with
  | nil => simp [Memory.insert, Ne.symm h]
  | cons e rest ih =>
    obtain ⟨k, v⟩ := e
    unfold Memory.insert
    split
    · simp [Ne.symm h]
    · simp [ih]

theorem Memory.read_insert_same (m : Memory) (a : Nat) (w : Word) (h : ∀ x ∈ m, x.1 ≠ a) :
    Memory.read (Memory.insert m a w) a = w := by
  induction m with
  | nil => simp [Memory.insert]
  | cons e rest ih =>
    obtain ⟨k, v⟩ := e
    have hk : k ≠ a := h (k, v) (by simp)
    unfold Memory.insert
    split
    · simp
    · simp [hk, ih fun x hx => h x (by simp [hx])]

theorem Memory.filter_not_listed (m : Memory) (a : Nat) : ∀ x ∈ m.filter (fun e => e.1 != a), x.1 ≠ a := by
  intro x hx
  simpa using (List.mem_filter.mp hx).2

/-- Everything a write does to what the cells read as. -/
@[simp] theorem Memory.read_write (m : Memory) (a x : Nat) (w : Word) :
    Memory.read (Memory.write m a w) x = if x = a then w else Memory.read m x := by
  unfold Memory.write
  by_cases hx : x = a
  · subst hx
    by_cases hw : w = Memory.unlisted
    · simp only [hw, if_true]
      exact Memory.read_of_not_listed _ _ (Memory.filter_not_listed m x)
    · simp only [hw, if_false, if_true]
      exact Memory.read_insert_same _ _ _ (Memory.filter_not_listed m x)
  · by_cases hw : w = Memory.unlisted
    · simp only [hw, if_true, hx, if_false]
      exact Memory.read_filter_other m a x hx
    · simp only [hw, if_false, hx]
      rw [Memory.read_insert_other _ _ _ _ hx, Memory.read_filter_other m a x hx]

/-- The entries of an insertion are the new one and the old ones. -/
theorem Memory.mem_insert (m : Memory) (a : Nat) (w : Word) (e : MainCell) :
    e ∈ Memory.insert m a w ↔ e = (a, w) ∨ e ∈ m := by
  induction m with
  | nil => simp [Memory.insert]
  | cons f rest ih =>
    obtain ⟨k, v⟩ := f
    unfold Memory.insert
    split
    · simp
    · simp only [List.mem_cons, ih]
      tauto

theorem Memory.insert_rising (m : Memory) (a : Nat) (w : Word)
    (hm : m.Pairwise fun x y => x.1 < y.1) (ha : ∀ x ∈ m, x.1 ≠ a) :
    (Memory.insert m a w).Pairwise fun x y => x.1 < y.1 := by
  induction m with
  | nil => simp [Memory.insert]
  | cons f rest ih =>
    obtain ⟨k, v⟩ := f
    have hk : k ≠ a := ha (k, v) (by simp)
    rw [List.pairwise_cons] at hm
    unfold Memory.insert
    split
    · rename_i hlt
      refine List.pairwise_cons.mpr ⟨?_, List.pairwise_cons.mpr hm⟩
      intro e he
      rcases List.mem_cons.mp he with rfl | he
      · exact hlt
      · exact Nat.lt_trans hlt (hm.1 e he)
    · refine List.pairwise_cons.mpr ⟨?_, ih hm.2 fun x hx => ha x (by simp [hx])⟩
      intro e he
      rcases (Memory.mem_insert rest a w e).mp he with rfl | he
      · simp only; omega
      · exact hm.1 e he

/-- A write inside the store keeps the canonical form. -/
theorem Memory.write_wf (m : Memory) (a : Nat) (w : Word) (hm : m.wf) (ha : a < Config.mainLen) :
    (Memory.write m a w).wf := by
  have hf : (m.filter fun e => e.1 != a).Pairwise fun x y => x.1 < y.1 := hm.1.filter _
  have hold : ∀ x ∈ m.filter (fun e => e.1 != a), x.1 < Config.mainLen ∧ x.2 ≠ Memory.unlisted :=
    fun x hx => hm.2 x (List.mem_filter.mp hx).1
  unfold Memory.write
  by_cases hw : w = Memory.unlisted
  · simp only [hw, if_true]
    exact ⟨hf, hold⟩
  · simp only [hw, if_false]
    refine ⟨Memory.insert_rising _ _ _ hf (Memory.filter_not_listed m a), ?_⟩
    intro x hx
    rcases (Memory.mem_insert _ _ _ _).mp hx with rfl | hx
    · exact ⟨ha, hw⟩
    · exact hold x hx

/-- The store after reset has the canonical form. -/
theorem Memory.nil_wf : Memory.wf [] := by simp [Memory.wf]

/-- Equal reads make equal stores: the canonical form is canonical. -/
theorem Memory.eq_of_read_eq (m m' : Memory) (hm : m.wf) (hm' : m'.wf)
    (h : ∀ a, m.read a = m'.read a) : m = m' := by
  induction m generalizing m' with
  | nil =>
    cases m' with
    | nil => rfl
    | cons e rest =>
      obtain ⟨k, w⟩ := e
      have hk := h k
      rw [Memory.read_nil, Memory.read_cons, if_pos rfl] at hk
      exact absurd hk.symm (hm'.2 (k, w) (by simp)).2
  | cons e rest ih =>
    cases m' with
    | nil =>
      obtain ⟨k, w⟩ := e
      have hk := h k
      rw [Memory.read_nil, Memory.read_cons, if_pos rfl] at hk
      exact absurd hk (hm.2 (k, w) (by simp)).2
    | cons e' rest' =>
      obtain ⟨k, w⟩ := e
      obtain ⟨k', w'⟩ := e'
      obtain ⟨hp, hq⟩ := List.pairwise_cons.mp hm.1
      obtain ⟨hp', hq'⟩ := List.pairwise_cons.mp hm'.1
      have lower : ∀ (r : Memory) (b : Nat), (∀ x ∈ r, b < x.1) → r.read b = Memory.unlisted :=
        fun r b hr => Memory.read_of_not_listed r b fun x hx => (Nat.ne_of_lt (hr x hx)).symm
      have hkk : k = k' := by
        rcases Nat.lt_trichotomy k k' with hlt | heq | hlt
        · have hk := h k
          rw [Memory.read_cons, if_pos rfl, Memory.read_cons, if_neg (by omega),
            lower rest' k fun x hx => Nat.lt_trans hlt (hp' x hx)] at hk
          exact absurd hk (hm.2 (k, w) (by simp)).2
        · exact heq
        · have hk := h k'
          rw [Memory.read_cons, if_neg (by omega), Memory.read_cons, if_pos rfl,
            lower rest k' fun x hx => Nat.lt_trans hlt (hp x hx)] at hk
          exact absurd hk.symm (hm'.2 (k', w') (by simp)).2
      subst hkk
      have hww : w = w' := by simpa using h k
      subst hww
      have hrest : ∀ a, Memory.read rest a = Memory.read rest' a := by
        intro a
        by_cases ha : k = a
        · subst ha
          rw [lower rest k hp, lower rest' k hp']
        · simpa [ha] using h a
      rw [ih rest' ⟨hq, fun x hx => hm.2 x (by simp [hx])⟩ ⟨hq', fun x hx => hm'.2 x (by simp [hx])⟩ hrest]

end Sys2Proof.Machine
end

