-- ==== Sys2Proof/Laws/State.lean ====
section
/-! SUPPORT. One lemma for each field of State under each named update: what the update writes, and that it leaves
the other fields alone. -/

namespace Sys2Proof.Machine

/-! ### setB -/

@[simp] theorem State.setB_ctr (st : State) (i : BIndex) (x : Addr) : (st.setB i x).ctr = st.ctr := rfl
@[simp] theorem State.setB_b (st : State) (i : BIndex) (x : Addr) : (st.setB i x).b = (st.b.set i.toNat x i.isLt) := rfl
@[simp] theorem State.setB_m (st : State) (i : BIndex) (x : Addr) : (st.setB i x).m = st.m := rfl
@[simp] theorem State.setB_l (st : State) (i : BIndex) (x : Addr) : (st.setB i x).l = st.l := rfl
@[simp] theorem State.setB_d (st : State) (i : BIndex) (x : Addr) : (st.setB i x).d = st.d := rfl
@[simp] theorem State.setB_s (st : State) (i : BIndex) (x : Addr) : (st.setB i x).s = st.s := rfl
@[simp] theorem State.setB_c (st : State) (i : BIndex) (x : Addr) : (st.setB i x).c = st.c := rfl
@[simp] theorem State.setB_v (st : State) (i : BIndex) (x : Addr) : (st.setB i x).v = st.v := rfl
@[simp] theorem State.setB_pm (st : State) (i : BIndex) (x : Addr) : (st.setB i x).pm = st.pm := rfl
@[simp] theorem State.setB_sel (st : State) (i : BIndex) (x : Addr) : (st.setB i x).sel = st.sel := rfl
@[simp] theorem State.setB_ovf (st : State) (i : BIndex) (x : Addr) : (st.setB i x).ovf = st.ovf := rfl
@[simp] theorem State.setB_unf (st : State) (i : BIndex) (x : Addr) : (st.setB i x).unf = st.unf := rfl
@[simp] theorem State.setB_stop (st : State) (i : BIndex) (x : Addr) : (st.setB i x).stop = st.stop := rfl
@[simp] theorem State.setB_optstop (st : State) (i : BIndex) (x : Addr) : (st.setB i x).optstop = st.optstop := rfl
@[simp] theorem State.setB_main (st : State) (i : BIndex) (x : Addr) : (st.setB i x).main = st.main := rfl
@[simp] theorem State.setB_boot (st : State) (i : BIndex) (x : Addr) : (st.setB i x).boot = st.boot := rfl
@[simp] theorem State.setB_tape (st : State) (i : BIndex) (x : Addr) : (st.setB i x).tape = st.tape := rfl
@[simp] theorem State.setB_events (st : State) (i : BIndex) (x : Addr) : (st.setB i x).events = st.events := rfl
@[simp] theorem State.setB_saved (st : State) (i : BIndex) (x : Addr) : (st.setB i x).saved = st.saved := rfl
@[simp] theorem State.setB_hook (st : State) (i : BIndex) (x : Addr) : (st.setB i x).hook = st.hook := rfl

/-! ### setAcc -/

@[simp] theorem State.setAcc_ctr (st : State) (x : Acc) : (st.setAcc x).ctr = st.ctr := rfl
@[simp] theorem State.setAcc_b (st : State) (x : Acc) : (st.setAcc x).b = st.b := rfl
@[simp] theorem State.setAcc_m (st : State) (x : Acc) : (st.setAcc x).m = (x.extractLsb' 19 21) := rfl
@[simp] theorem State.setAcc_l (st : State) (x : Acc) : (st.setAcc x).l = (x.extractLsb' 0 19) := rfl
@[simp] theorem State.setAcc_d (st : State) (x : Acc) : (st.setAcc x).d = st.d := rfl
@[simp] theorem State.setAcc_s (st : State) (x : Acc) : (st.setAcc x).s = st.s := rfl
@[simp] theorem State.setAcc_c (st : State) (x : Acc) : (st.setAcc x).c = st.c := rfl
@[simp] theorem State.setAcc_v (st : State) (x : Acc) : (st.setAcc x).v = st.v := rfl
@[simp] theorem State.setAcc_pm (st : State) (x : Acc) : (st.setAcc x).pm = st.pm := rfl
@[simp] theorem State.setAcc_sel (st : State) (x : Acc) : (st.setAcc x).sel = st.sel := rfl
@[simp] theorem State.setAcc_ovf (st : State) (x : Acc) : (st.setAcc x).ovf = st.ovf := rfl
@[simp] theorem State.setAcc_unf (st : State) (x : Acc) : (st.setAcc x).unf = st.unf := rfl
@[simp] theorem State.setAcc_stop (st : State) (x : Acc) : (st.setAcc x).stop = st.stop := rfl
@[simp] theorem State.setAcc_optstop (st : State) (x : Acc) : (st.setAcc x).optstop = st.optstop := rfl
@[simp] theorem State.setAcc_main (st : State) (x : Acc) : (st.setAcc x).main = st.main := rfl
@[simp] theorem State.setAcc_boot (st : State) (x : Acc) : (st.setAcc x).boot = st.boot := rfl
@[simp] theorem State.setAcc_tape (st : State) (x : Acc) : (st.setAcc x).tape = st.tape := rfl
@[simp] theorem State.setAcc_events (st : State) (x : Acc) : (st.setAcc x).events = st.events := rfl
@[simp] theorem State.setAcc_saved (st : State) (x : Acc) : (st.setAcc x).saved = st.saved := rfl
@[simp] theorem State.setAcc_hook (st : State) (x : Acc) : (st.setAcc x).hook = st.hook := rfl

/-! ### jumpIf -/

@[simp] theorem State.jumpIf_ctr (st : State) (cond : Bool) (t : Addr) : (st.jumpIf cond t).ctr = (if cond then t else st.ctr) := rfl
@[simp] theorem State.jumpIf_b (st : State) (cond : Bool) (t : Addr) : (st.jumpIf cond t).b = st.b := rfl
@[simp] theorem State.jumpIf_m (st : State) (cond : Bool) (t : Addr) : (st.jumpIf cond t).m = st.m := rfl
@[simp] theorem State.jumpIf_l (st : State) (cond : Bool) (t : Addr) : (st.jumpIf cond t).l = st.l := rfl
@[simp] theorem State.jumpIf_d (st : State) (cond : Bool) (t : Addr) : (st.jumpIf cond t).d = st.d := rfl
@[simp] theorem State.jumpIf_s (st : State) (cond : Bool) (t : Addr) : (st.jumpIf cond t).s = st.s := rfl
@[simp] theorem State.jumpIf_c (st : State) (cond : Bool) (t : Addr) : (st.jumpIf cond t).c = st.c := rfl
@[simp] theorem State.jumpIf_v (st : State) (cond : Bool) (t : Addr) : (st.jumpIf cond t).v = st.v := rfl
@[simp] theorem State.jumpIf_pm (st : State) (cond : Bool) (t : Addr) : (st.jumpIf cond t).pm = st.pm := rfl
@[simp] theorem State.jumpIf_sel (st : State) (cond : Bool) (t : Addr) : (st.jumpIf cond t).sel = st.sel := rfl
@[simp] theorem State.jumpIf_ovf (st : State) (cond : Bool) (t : Addr) : (st.jumpIf cond t).ovf = st.ovf := rfl
@[simp] theorem State.jumpIf_unf (st : State) (cond : Bool) (t : Addr) : (st.jumpIf cond t).unf = st.unf := rfl
@[simp] theorem State.jumpIf_stop (st : State) (cond : Bool) (t : Addr) : (st.jumpIf cond t).stop = st.stop := rfl
@[simp] theorem State.jumpIf_optstop (st : State) (cond : Bool) (t : Addr) : (st.jumpIf cond t).optstop = st.optstop := rfl
@[simp] theorem State.jumpIf_main (st : State) (cond : Bool) (t : Addr) : (st.jumpIf cond t).main = st.main := rfl
@[simp] theorem State.jumpIf_boot (st : State) (cond : Bool) (t : Addr) : (st.jumpIf cond t).boot = st.boot := rfl
@[simp] theorem State.jumpIf_tape (st : State) (cond : Bool) (t : Addr) : (st.jumpIf cond t).tape = st.tape := rfl
@[simp] theorem State.jumpIf_events (st : State) (cond : Bool) (t : Addr) : (st.jumpIf cond t).events = st.events := rfl
@[simp] theorem State.jumpIf_saved (st : State) (cond : Bool) (t : Addr) : (st.jumpIf cond t).saved = st.saved := rfl
@[simp] theorem State.jumpIf_hook (st : State) (cond : Bool) (t : Addr) : (st.jumpIf cond t).hook = st.hook := rfl

/-! ### raiseStop -/

@[simp] theorem State.raiseStop_ctr (st : State) (r : StopReason) : (st.raiseStop r).ctr = st.ctr := rfl
@[simp] theorem State.raiseStop_b (st : State) (r : StopReason) : (st.raiseStop r).b = st.b := rfl
@[simp] theorem State.raiseStop_m (st : State) (r : StopReason) : (st.raiseStop r).m = st.m := rfl
@[simp] theorem State.raiseStop_l (st : State) (r : StopReason) : (st.raiseStop r).l = st.l := rfl
@[simp] theorem State.raiseStop_d (st : State) (r : StopReason) : (st.raiseStop r).d = st.d := rfl
@[simp] theorem State.raiseStop_s (st : State) (r : StopReason) : (st.raiseStop r).s = st.s := rfl
@[simp] theorem State.raiseStop_c (st : State) (r : StopReason) : (st.raiseStop r).c = st.c := rfl
@[simp] theorem State.raiseStop_v (st : State) (r : StopReason) : (st.raiseStop r).v = st.v := rfl
@[simp] theorem State.raiseStop_pm (st : State) (r : StopReason) : (st.raiseStop r).pm = st.pm := rfl
@[simp] theorem State.raiseStop_sel (st : State) (r : StopReason) : (st.raiseStop r).sel = st.sel := rfl
@[simp] theorem State.raiseStop_ovf (st : State) (r : StopReason) : (st.raiseStop r).ovf = st.ovf := rfl
@[simp] theorem State.raiseStop_unf (st : State) (r : StopReason) : (st.raiseStop r).unf = st.unf := rfl
@[simp] theorem State.raiseStop_stop (st : State) (r : StopReason) : (st.raiseStop r).stop = (some r) := rfl
@[simp] theorem State.raiseStop_optstop (st : State) (r : StopReason) : (st.raiseStop r).optstop = st.optstop := rfl
@[simp] theorem State.raiseStop_main (st : State) (r : StopReason) : (st.raiseStop r).main = st.main := rfl
@[simp] theorem State.raiseStop_boot (st : State) (r : StopReason) : (st.raiseStop r).boot = st.boot := rfl
@[simp] theorem State.raiseStop_tape (st : State) (r : StopReason) : (st.raiseStop r).tape = st.tape := rfl
@[simp] theorem State.raiseStop_events (st : State) (r : StopReason) : (st.raiseStop r).events = (if st.stop = none then st.events ++ [.stopped r] else st.events) := rfl
@[simp] theorem State.raiseStop_saved (st : State) (r : StopReason) : (st.raiseStop r).saved = st.saved := rfl
@[simp] theorem State.raiseStop_hook (st : State) (r : StopReason) : (st.raiseStop r).hook = st.hook := rfl

/-! ### restoreStatus -/

@[simp] theorem State.restoreStatus_ctr (st : State) : (st.restoreStatus).ctr = st.ctr := rfl
@[simp] theorem State.restoreStatus_b (st : State) : (st.restoreStatus).b = st.b := rfl
@[simp] theorem State.restoreStatus_m (st : State) : (st.restoreStatus).m = st.m := rfl
@[simp] theorem State.restoreStatus_l (st : State) : (st.restoreStatus).l = st.l := rfl
@[simp] theorem State.restoreStatus_d (st : State) : (st.restoreStatus).d = st.d := rfl
@[simp] theorem State.restoreStatus_s (st : State) : (st.restoreStatus).s = st.s := rfl
@[simp] theorem State.restoreStatus_c (st : State) : (st.restoreStatus).c = st.c := rfl
@[simp] theorem State.restoreStatus_v (st : State) : (st.restoreStatus).v = st.v := rfl
@[simp] theorem State.restoreStatus_pm (st : State) : (st.restoreStatus).pm = st.pm := rfl
@[simp] theorem State.restoreStatus_sel (st : State) : (st.restoreStatus).sel = st.sel := rfl
@[simp] theorem State.restoreStatus_ovf (st : State) : (st.restoreStatus).ovf = st.saved.ovf := rfl
@[simp] theorem State.restoreStatus_unf (st : State) : (st.restoreStatus).unf = st.saved.unf := rfl
@[simp] theorem State.restoreStatus_stop (st : State) : (st.restoreStatus).stop = st.saved.stop := rfl
@[simp] theorem State.restoreStatus_optstop (st : State) : (st.restoreStatus).optstop = st.optstop := rfl
@[simp] theorem State.restoreStatus_main (st : State) : (st.restoreStatus).main = st.main := rfl
@[simp] theorem State.restoreStatus_boot (st : State) : (st.restoreStatus).boot = st.boot := rfl
@[simp] theorem State.restoreStatus_tape (st : State) : (st.restoreStatus).tape = st.tape := rfl
@[simp] theorem State.restoreStatus_events (st : State) : (st.restoreStatus).events = st.events := rfl
@[simp] theorem State.restoreStatus_saved (st : State) : (st.restoreStatus).saved = st.saved := rfl
@[simp] theorem State.restoreStatus_hook (st : State) : (st.restoreStatus).hook = st.hook := rfl

/-! ### saveStatus -/

@[simp] theorem State.saveStatus_ctr (st : State) : (st.saveStatus).ctr = st.ctr := rfl
@[simp] theorem State.saveStatus_b (st : State) : (st.saveStatus).b = st.b := rfl
@[simp] theorem State.saveStatus_m (st : State) : (st.saveStatus).m = st.m := rfl
@[simp] theorem State.saveStatus_l (st : State) : (st.saveStatus).l = st.l := rfl
@[simp] theorem State.saveStatus_d (st : State) : (st.saveStatus).d = st.d := rfl
@[simp] theorem State.saveStatus_s (st : State) : (st.saveStatus).s = st.s := rfl
@[simp] theorem State.saveStatus_c (st : State) : (st.saveStatus).c = st.c := rfl
@[simp] theorem State.saveStatus_v (st : State) : (st.saveStatus).v = st.v := rfl
@[simp] theorem State.saveStatus_pm (st : State) : (st.saveStatus).pm = st.pm := rfl
@[simp] theorem State.saveStatus_sel (st : State) : (st.saveStatus).sel = st.sel := rfl
@[simp] theorem State.saveStatus_ovf (st : State) : (st.saveStatus).ovf = false := rfl
@[simp] theorem State.saveStatus_unf (st : State) : (st.saveStatus).unf = false := rfl
@[simp] theorem State.saveStatus_stop (st : State) : (st.saveStatus).stop = none := rfl
@[simp] theorem State.saveStatus_optstop (st : State) : (st.saveStatus).optstop = st.optstop := rfl
@[simp] theorem State.saveStatus_main (st : State) : (st.saveStatus).main = st.main := rfl
@[simp] theorem State.saveStatus_boot (st : State) : (st.saveStatus).boot = st.boot := rfl
@[simp] theorem State.saveStatus_tape (st : State) : (st.saveStatus).tape = st.tape := rfl
@[simp] theorem State.saveStatus_events (st : State) : (st.saveStatus).events = st.events := rfl
@[simp] theorem State.saveStatus_saved (st : State) : (st.saveStatus).saved = (⟨st.stop, st.ovf, st.unf⟩) := rfl
@[simp] theorem State.saveStatus_hook (st : State) : (st.saveStatus).hook = st.hook := rfl

/-! ### handOver -/

@[simp] theorem State.handOver_ctr (st : State) (e : Event) : (st.handOver e).ctr = st.ctr := rfl
@[simp] theorem State.handOver_b (st : State) (e : Event) : (st.handOver e).b = st.b := rfl
@[simp] theorem State.handOver_m (st : State) (e : Event) : (st.handOver e).m = st.m := rfl
@[simp] theorem State.handOver_l (st : State) (e : Event) : (st.handOver e).l = st.l := rfl
@[simp] theorem State.handOver_d (st : State) (e : Event) : (st.handOver e).d = st.d := rfl
@[simp] theorem State.handOver_s (st : State) (e : Event) : (st.handOver e).s = st.s := rfl
@[simp] theorem State.handOver_c (st : State) (e : Event) : (st.handOver e).c = st.c := rfl
@[simp] theorem State.handOver_v (st : State) (e : Event) : (st.handOver e).v = st.v := rfl
@[simp] theorem State.handOver_pm (st : State) (e : Event) : (st.handOver e).pm = st.pm := rfl
@[simp] theorem State.handOver_sel (st : State) (e : Event) : (st.handOver e).sel = st.sel := rfl
@[simp] theorem State.handOver_ovf (st : State) (e : Event) : (st.handOver e).ovf = st.ovf := rfl
@[simp] theorem State.handOver_unf (st : State) (e : Event) : (st.handOver e).unf = st.unf := rfl
@[simp] theorem State.handOver_stop (st : State) (e : Event) : (st.handOver e).stop = st.stop := rfl
@[simp] theorem State.handOver_optstop (st : State) (e : Event) : (st.handOver e).optstop = st.optstop := rfl
@[simp] theorem State.handOver_main (st : State) (e : Event) : (st.handOver e).main = st.main := rfl
@[simp] theorem State.handOver_boot (st : State) (e : Event) : (st.handOver e).boot = st.boot := rfl
@[simp] theorem State.handOver_tape (st : State) (e : Event) : (st.handOver e).tape = st.tape := rfl
@[simp] theorem State.handOver_events (st : State) (e : Event) : (st.handOver e).events = st.events := rfl
@[simp] theorem State.handOver_saved (st : State) (e : Event) : (st.handOver e).saved = st.saved := rfl
@[simp] theorem State.handOver_hook (st : State) (e : Event) : (st.handOver e).hook = (some e) := rfl

/-! ### tapeAdvance -/

@[simp] theorem State.tapeAdvance_ctr (st : State) : (st.tapeAdvance).ctr = st.ctr := rfl
@[simp] theorem State.tapeAdvance_b (st : State) : (st.tapeAdvance).b = st.b := rfl
@[simp] theorem State.tapeAdvance_m (st : State) : (st.tapeAdvance).m = st.m := rfl
@[simp] theorem State.tapeAdvance_l (st : State) : (st.tapeAdvance).l = st.l := rfl
@[simp] theorem State.tapeAdvance_d (st : State) : (st.tapeAdvance).d = st.d := rfl
@[simp] theorem State.tapeAdvance_s (st : State) : (st.tapeAdvance).s = st.s := rfl
@[simp] theorem State.tapeAdvance_c (st : State) : (st.tapeAdvance).c = st.c := rfl
@[simp] theorem State.tapeAdvance_v (st : State) : (st.tapeAdvance).v = st.v := rfl
@[simp] theorem State.tapeAdvance_pm (st : State) : (st.tapeAdvance).pm = st.pm := rfl
@[simp] theorem State.tapeAdvance_sel (st : State) : (st.tapeAdvance).sel = st.sel := rfl
@[simp] theorem State.tapeAdvance_ovf (st : State) : (st.tapeAdvance).ovf = st.ovf := rfl
@[simp] theorem State.tapeAdvance_unf (st : State) : (st.tapeAdvance).unf = st.unf := rfl
@[simp] theorem State.tapeAdvance_stop (st : State) : (st.tapeAdvance).stop = st.stop := rfl
@[simp] theorem State.tapeAdvance_optstop (st : State) : (st.tapeAdvance).optstop = st.optstop := rfl
@[simp] theorem State.tapeAdvance_main (st : State) : (st.tapeAdvance).main = st.main := rfl
@[simp] theorem State.tapeAdvance_boot (st : State) : (st.tapeAdvance).boot = st.boot := rfl
@[simp] theorem State.tapeAdvance_tape (st : State) : (st.tapeAdvance).tape = st.tape.tail := rfl
@[simp] theorem State.tapeAdvance_events (st : State) : (st.tapeAdvance).events = st.events := rfl
@[simp] theorem State.tapeAdvance_saved (st : State) : (st.tapeAdvance).saved = st.saved := rfl
@[simp] theorem State.tapeAdvance_hook (st : State) : (st.tapeAdvance).hook = st.hook := rfl

/-! ### loadOrder -/

@[simp] theorem State.loadOrder_ctr (st : State) (w : Word) : (st.loadOrder w).ctr = (st.ctr + 1) := rfl
@[simp] theorem State.loadOrder_b (st : State) (w : Word) : (st.loadOrder w).b = st.b := rfl
@[simp] theorem State.loadOrder_m (st : State) (w : Word) : (st.loadOrder w).m = st.m := rfl
@[simp] theorem State.loadOrder_l (st : State) (w : Word) : (st.loadOrder w).l = st.l := rfl
@[simp] theorem State.loadOrder_d (st : State) (w : Word) : (st.loadOrder w).d = st.d := rfl
@[simp] theorem State.loadOrder_s (st : State) (w : Word) : (st.loadOrder w).s = (sext21 w) := rfl
@[simp] theorem State.loadOrder_c (st : State) (w : Word) : (st.loadOrder w).c = (zext21 w) := rfl
@[simp] theorem State.loadOrder_v (st : State) (w : Word) : (st.loadOrder w).v = st.v := rfl
@[simp] theorem State.loadOrder_pm (st : State) (w : Word) : (st.loadOrder w).pm = st.pm := rfl
@[simp] theorem State.loadOrder_sel (st : State) (w : Word) : (st.loadOrder w).sel = st.sel := rfl
@[simp] theorem State.loadOrder_ovf (st : State) (w : Word) : (st.loadOrder w).ovf = st.ovf := rfl
@[simp] theorem State.loadOrder_unf (st : State) (w : Word) : (st.loadOrder w).unf = st.unf := rfl
@[simp] theorem State.loadOrder_stop (st : State) (w : Word) : (st.loadOrder w).stop = st.stop := rfl
@[simp] theorem State.loadOrder_optstop (st : State) (w : Word) : (st.loadOrder w).optstop = st.optstop := rfl
@[simp] theorem State.loadOrder_main (st : State) (w : Word) : (st.loadOrder w).main = st.main := rfl
@[simp] theorem State.loadOrder_boot (st : State) (w : Word) : (st.loadOrder w).boot = st.boot := rfl
@[simp] theorem State.loadOrder_tape (st : State) (w : Word) : (st.loadOrder w).tape = st.tape := rfl
@[simp] theorem State.loadOrder_events (st : State) (w : Word) : (st.loadOrder w).events = st.events := rfl
@[simp] theorem State.loadOrder_saved (st : State) (w : Word) : (st.loadOrder w).saved = st.saved := rfl
@[simp] theorem State.loadOrder_hook (st : State) (w : Word) : (st.loadOrder w).hook = st.hook := rfl

/-! ### endOrder -/

@[simp] theorem State.endOrder_ctr (st : State) : (st.endOrder).ctr = st.ctr := rfl
@[simp] theorem State.endOrder_b (st : State) : (st.endOrder).b = st.b := rfl
@[simp] theorem State.endOrder_m (st : State) : (st.endOrder).m = st.m := rfl
@[simp] theorem State.endOrder_l (st : State) : (st.endOrder).l = st.l := rfl
@[simp] theorem State.endOrder_d (st : State) : (st.endOrder).d = st.d := rfl
@[simp] theorem State.endOrder_s (st : State) : (st.endOrder).s = st.s := rfl
@[simp] theorem State.endOrder_c (st : State) : (st.endOrder).c = st.c := rfl
@[simp] theorem State.endOrder_v (st : State) : (st.endOrder).v = st.v := rfl
@[simp] theorem State.endOrder_pm (st : State) : (st.endOrder).pm = st.pm := rfl
@[simp] theorem State.endOrder_sel (st : State) : (st.endOrder).sel = st.sel := rfl
@[simp] theorem State.endOrder_ovf (st : State) : (st.endOrder).ovf = st.ovf := rfl
@[simp] theorem State.endOrder_unf (st : State) : (st.endOrder).unf = st.unf := rfl
@[simp] theorem State.endOrder_stop (st : State) : (st.endOrder).stop = st.stop := rfl
@[simp] theorem State.endOrder_optstop (st : State) : (st.endOrder).optstop = st.optstop := rfl
@[simp] theorem State.endOrder_main (st : State) : (st.endOrder).main = st.main := rfl
@[simp] theorem State.endOrder_boot (st : State) : (st.endOrder).boot = st.boot := rfl
@[simp] theorem State.endOrder_tape (st : State) : (st.endOrder).tape = st.tape := rfl
@[simp] theorem State.endOrder_events (st : State) : (st.endOrder).events = (st.events ++ [.postOrder] ++ st.hook.toList) := rfl
@[simp] theorem State.endOrder_saved (st : State) : (st.endOrder).saved = Status.cleared := rfl
@[simp] theorem State.endOrder_hook (st : State) : (st.endOrder).hook = none := rfl

/-! ### consumeModifier -/

@[simp] theorem State.consumeModifier_ctr (st : State) : st.consumeModifier.ctr = st.ctr := by
  unfold State.consumeModifier; split <;> rfl
@[simp] theorem State.consumeModifier_b (st : State) : st.consumeModifier.b = st.b := by
  unfold State.consumeModifier; split <;> rfl
@[simp] theorem State.consumeModifier_m (st : State) : st.consumeModifier.m = st.m := by
  unfold State.consumeModifier; split <;> rfl
@[simp] theorem State.consumeModifier_l (st : State) : st.consumeModifier.l = st.l := by
  unfold State.consumeModifier; split <;> rfl
@[simp] theorem State.consumeModifier_d (st : State) : st.consumeModifier.d = st.d := by
  unfold State.consumeModifier; split <;> rfl
@[simp] theorem State.consumeModifier_s (st : State) : st.consumeModifier.s = st.s := by
  unfold State.consumeModifier; split <;> rfl
@[simp] theorem State.consumeModifier_v (st : State) : st.consumeModifier.v = st.v := by
  unfold State.consumeModifier; split <;> rfl
@[simp] theorem State.consumeModifier_sel (st : State) : st.consumeModifier.sel = st.sel := by
  unfold State.consumeModifier; split <;> rfl
@[simp] theorem State.consumeModifier_ovf (st : State) : st.consumeModifier.ovf = st.ovf := by
  unfold State.consumeModifier; split <;> rfl
@[simp] theorem State.consumeModifier_unf (st : State) : st.consumeModifier.unf = st.unf := by
  unfold State.consumeModifier; split <;> rfl
@[simp] theorem State.consumeModifier_stop (st : State) : st.consumeModifier.stop = st.stop := by
  unfold State.consumeModifier; split <;> rfl
@[simp] theorem State.consumeModifier_optstop (st : State) : st.consumeModifier.optstop = st.optstop := by
  unfold State.consumeModifier; split <;> rfl
@[simp] theorem State.consumeModifier_main (st : State) : st.consumeModifier.main = st.main := by
  unfold State.consumeModifier; split <;> rfl
@[simp] theorem State.consumeModifier_boot (st : State) : st.consumeModifier.boot = st.boot := by
  unfold State.consumeModifier; split <;> rfl
@[simp] theorem State.consumeModifier_tape (st : State) : st.consumeModifier.tape = st.tape := by
  unfold State.consumeModifier; split <;> rfl
@[simp] theorem State.consumeModifier_events (st : State) : st.consumeModifier.events = st.events := by
  unfold State.consumeModifier; split <;> rfl
@[simp] theorem State.consumeModifier_saved (st : State) : st.consumeModifier.saved = st.saved := by
  unfold State.consumeModifier; split <;> rfl
@[simp] theorem State.consumeModifier_hook (st : State) : st.consumeModifier.hook = st.hook := by
  unfold State.consumeModifier; split <;> rfl
@[simp] theorem State.consumeModifier_pm (st : State) : st.consumeModifier.pm = none := by
  unfold State.consumeModifier; split <;> simp_all
theorem State.consumeModifier_c (st : State) :
    st.consumeModifier.c = match st.pm with | none => st.c | some x => addToN st.c x := by
  cases h : st.pm <;> simp [State.consumeModifier, h]

/-! ### signal -/

@[simp] theorem State.signal_ctr (st : State) (o : Option Overflow) : (st.signal o).ctr = st.ctr := by
  unfold State.signal; split <;> rfl
@[simp] theorem State.signal_b (st : State) (o : Option Overflow) : (st.signal o).b = st.b := by
  unfold State.signal; split <;> rfl
@[simp] theorem State.signal_m (st : State) (o : Option Overflow) : (st.signal o).m = st.m := by
  unfold State.signal; split <;> rfl
@[simp] theorem State.signal_l (st : State) (o : Option Overflow) : (st.signal o).l = st.l := by
  unfold State.signal; split <;> rfl
@[simp] theorem State.signal_d (st : State) (o : Option Overflow) : (st.signal o).d = st.d := by
  unfold State.signal; split <;> rfl
@[simp] theorem State.signal_s (st : State) (o : Option Overflow) : (st.signal o).s = st.s := by
  unfold State.signal; split <;> rfl
@[simp] theorem State.signal_c (st : State) (o : Option Overflow) : (st.signal o).c = st.c := by
  unfold State.signal; split <;> rfl
@[simp] theorem State.signal_v (st : State) (o : Option Overflow) : (st.signal o).v = st.v := by
  unfold State.signal; split <;> rfl
@[simp] theorem State.signal_pm (st : State) (o : Option Overflow) : (st.signal o).pm = st.pm := by
  unfold State.signal; split <;> rfl
@[simp] theorem State.signal_sel (st : State) (o : Option Overflow) : (st.signal o).sel = st.sel := by
  unfold State.signal; split <;> rfl
@[simp] theorem State.signal_optstop (st : State) (o : Option Overflow) : (st.signal o).optstop = st.optstop := by
  unfold State.signal; split <;> rfl
@[simp] theorem State.signal_main (st : State) (o : Option Overflow) : (st.signal o).main = st.main := by
  unfold State.signal; split <;> rfl
@[simp] theorem State.signal_boot (st : State) (o : Option Overflow) : (st.signal o).boot = st.boot := by
  unfold State.signal; split <;> rfl
@[simp] theorem State.signal_tape (st : State) (o : Option Overflow) : (st.signal o).tape = st.tape := by
  unfold State.signal; split <;> rfl
@[simp] theorem State.signal_saved (st : State) (o : Option Overflow) : (st.signal o).saved = st.saved := by
  unfold State.signal; split <;> rfl
@[simp] theorem State.signal_hook (st : State) (o : Option Overflow) : (st.signal o).hook = st.hook := by
  unfold State.signal; split <;> rfl

/-! ### checkS -/

@[simp] theorem State.checkS_ctr (st : State) : (st.checkS).ctr = st.ctr := by
  unfold State.checkS; split <;> rfl
@[simp] theorem State.checkS_b (st : State) : (st.checkS).b = st.b := by
  unfold State.checkS; split <;> rfl
@[simp] theorem State.checkS_m (st : State) : (st.checkS).m = st.m := by
  unfold State.checkS; split <;> rfl
@[simp] theorem State.checkS_l (st : State) : (st.checkS).l = st.l := by
  unfold State.checkS; split <;> rfl
@[simp] theorem State.checkS_d (st : State) : (st.checkS).d = st.d := by
  unfold State.checkS; split <;> rfl
@[simp] theorem State.checkS_s (st : State) : (st.checkS).s = st.s := by
  unfold State.checkS; split <;> rfl
@[simp] theorem State.checkS_c (st : State) : (st.checkS).c = st.c := by
  unfold State.checkS; split <;> rfl
@[simp] theorem State.checkS_v (st : State) : (st.checkS).v = st.v := by
  unfold State.checkS; split <;> rfl
@[simp] theorem State.checkS_pm (st : State) : (st.checkS).pm = st.pm := by
  unfold State.checkS; split <;> rfl
@[simp] theorem State.checkS_sel (st : State) : (st.checkS).sel = st.sel := by
  unfold State.checkS; split <;> rfl
@[simp] theorem State.checkS_ovf (st : State) : (st.checkS).ovf = st.ovf := by
  unfold State.checkS; split <;> rfl
@[simp] theorem State.checkS_unf (st : State) : (st.checkS).unf = st.unf := by
  unfold State.checkS; split <;> rfl
@[simp] theorem State.checkS_optstop (st : State) : (st.checkS).optstop = st.optstop := by
  unfold State.checkS; split <;> rfl
@[simp] theorem State.checkS_main (st : State) : (st.checkS).main = st.main := by
  unfold State.checkS; split <;> rfl
@[simp] theorem State.checkS_boot (st : State) : (st.checkS).boot = st.boot := by
  unfold State.checkS; split <;> rfl
@[simp] theorem State.checkS_tape (st : State) : (st.checkS).tape = st.tape := by
  unfold State.checkS; split <;> rfl
@[simp] theorem State.checkS_saved (st : State) : (st.checkS).saved = st.saved := by
  unfold State.checkS; split <;> rfl
@[simp] theorem State.checkS_hook (st : State) : (st.checkS).hook = st.hook := by
  unfold State.checkS; split <;> rfl

end Sys2Proof.Machine
end

