-- ==== Sys2Proof/Laws/Ops.lean ====
section
/-! SUPPORT. For each shared operation over registers and stores, what it can do, said once: the register file, the
accumulator as a pair, the two access primitives, the stop. -/

namespace Sys2Proof.Machine

/-! ### Registers -/

/-- Everything a write of a B-register does to what the B-registers read as. -/
@[simp] theorem State.getB_setB (st : State) (i j : BIndex) (x : Addr) :
    (st.setB i x).getB j = if j = i then x else st.getB j := by
  unfold State.getB State.setB
  simp only [Vector.getElem_set]
  by_cases h : j = i
  · subst h; simp
  · have : ¬i.toNat = j.toNat := fun e => h (BitVec.eq_of_toNat_eq e.symm)
    simp [h, this]

/-- A record update of another field leaves the B-registers as they read: they are read from `b` alone. -/
theorem State.getB_congr (st t : State) (h : st.b = t.b) (i : BIndex) : st.getB i = t.getB i := by
  simp only [State.getB, h]

/-- A 40-bit value is its two halves. -/
theorem acc_split (x : Acc) : (x.extractLsb' 19 21 ++ x.extractLsb' 0 19 : Acc) = x := by
  apply BitVec.eq_of_getLsbD_eq
  intro k hk
  simp only [BitVec.getLsbD_append, BitVec.getLsbD_extractLsb']
  grind

/-- The halves of a pair are its two parts. -/
theorem acc_high (m : OdWord) (l : Low) : (m ++ l : Acc).extractLsb' 19 21 = m := by
  apply BitVec.eq_of_getLsbD_eq
  intro k hk
  simp only [BitVec.getLsbD_append, BitVec.getLsbD_extractLsb']
  grind

theorem acc_low (m : OdWord) (l : Low) : (m ++ l : Acc).extractLsb' 0 19 = l := by
  apply BitVec.eq_of_getLsbD_eq
  intro k hk
  simp only [BitVec.getLsbD_append, BitVec.getLsbD_extractLsb']
  grind

@[simp] theorem State.acc_setAcc (st : State) (x : Acc) : (st.setAcc x).acc = x := acc_split x

/-- Writing back the accumulator that is there changes nothing. -/
@[simp] theorem State.setAcc_acc (st : State) : st.setAcc st.acc = st := by
  simp only [State.setAcc, State.acc, acc_high, acc_low]

/-! ### The access primitives -/

/-- The valid addresses are those below 512 (R66). -/
theorem validAddr_iff (a : Addr) : validAddr a = true ↔ a.toNat < 512 := by
  simp [validAddr, Config.mainLen]

/-- `MemRead` at a valid address (R64). -/
theorem memRead_valid (a : Addr) (rest : Word → State → State) (st : State) (h : a.toNat < 512) :
    memRead a rest st = rest (st.main.read a.toNat) { st with s := sext21 (st.main.read a.toNat) } := by
  rw [memRead, if_pos ((validAddr_iff a).mpr h)]
  rfl

/-- `MemRead` at an invalid address (R66, R121). -/
theorem memRead_invalid (a : Addr) (rest : Word → State → State) (st : State) (h : 512 ≤ a.toNat) :
    memRead a rest st = st.raiseStop .absolute := by
  rw [memRead, if_neg]
  rw [validAddr_iff]
  omega

/-- `MemWrite` at a valid address (R65). -/
theorem memWrite_valid (a : Addr) (mirror : OdWord) (rest : State → State) (st : State) (h : a.toNat < 512) :
    memWrite a mirror rest st =
      rest { st with s := mirror, main := st.main.write a.toNat (cellBits mirror) } := by
  rw [memWrite, if_pos ((validAddr_iff a).mpr h)]

/-- `MemWrite` at an invalid address (R66, R121). -/
theorem memWrite_invalid (a : Addr) (mirror : OdWord) (rest : State → State) (st : State) (h : 512 ≤ a.toNat) :
    memWrite a mirror rest st = st.raiseStop .absolute := by
  rw [memWrite, if_neg]
  rw [validAddr_iff]
  omega

/-- Whatever `MemRead` answers is the rest of the order on the state with S mirrored, or the Absolute stop. -/
theorem memRead_cases (a : Addr) (rest : Word → State → State) (st : State) :
    (a.toNat < 512 ∧
      memRead a rest st = rest (st.main.read a.toNat) { st with s := sext21 (st.main.read a.toNat) }) ∨
    (512 ≤ a.toNat ∧ memRead a rest st = st.raiseStop .absolute) := by
  by_cases h : a.toNat < 512
  · exact .inl ⟨h, memRead_valid a rest st h⟩
  · exact .inr ⟨by omega, memRead_invalid a rest st (by omega)⟩

/-- Whatever `MemWrite` answers is the rest of the order on the state with the cell and S written, or the Absolute
stop. -/
theorem memWrite_cases (a : Addr) (mirror : OdWord) (rest : State → State) (st : State) :
    (a.toNat < 512 ∧
      memWrite a mirror rest st =
        rest { st with s := mirror, main := st.main.write a.toNat (cellBits mirror) }) ∨
    (512 ≤ a.toNat ∧ memWrite a mirror rest st = st.raiseStop .absolute) := by
  by_cases h : a.toNat < 512
  · exact .inl ⟨h, memWrite_valid a mirror rest st h⟩
  · exact .inr ⟨by omega, memWrite_invalid a mirror rest st (by omega)⟩

/-! ### Widths -/

/-- The low 20 bits of a value zero-extended to 21 bits are the value zero-extended to 20. -/
theorem cellBits_setWidth {k : Nat} (x : BitVec k) : cellBits (x.setWidth 21) = x.setWidth 20 := by
  apply BitVec.eq_of_getLsbD_eq
  intro j hj
  simp only [cellBits, BitVec.getLsbD_setWidth]
  grind

/-- The cell keeps what the sign extension added nothing to. -/
theorem cellBits_sext21 (w : Word) : cellBits (sext21 w) = w := by
  apply BitVec.eq_of_getLsbD_eq
  intro j hj
  simp only [cellBits, sext21, BitVec.getLsbD_setWidth, BitVec.getLsbD_signExtend]
  grind

end Sys2Proof.Machine
end

