-- ==== Sys2Proof/Laws/Flags.lean ====
section
/-! SUPPORT. The laws of values, overflow and flags: the three outcomes of `signal`, the value of a sign-extended
word, and when the 21-bit pattern of an exact result has overflowed. -/

namespace Sys2Proof.Machine

@[simp] theorem State.signal_none (st : State) : st.signal none = st := rfl

@[simp] theorem State.signal_positive (st : State) :
    st.signal (some .positive) = { st with ovf := true }.raiseStop .recoverableOverflow := rfl

@[simp] theorem State.signal_negative (st : State) :
    st.signal (some .negative) = { st with unf := true }.raiseStop .recoverableOverflow := rfl

/-- The check of S stops or does nothing. -/
theorem State.checkS_eq (st : State) :
    st.checkS = if hasOverflowed st.s then st.raiseStop .irrecoverableOverflow else st := rfl

/-- The overflow predicate under the default OD_PREDICATE (R31). -/
theorem hasOverflowed_iff (r : OdWord) : hasOverflowed r = true ↔ r.getLsbD 20 ≠ r.getLsbD 19 := by
  simp [hasOverflowed, overflowedBy, Config.odPredicate]

theorem word_range (w : Word) : -2 ^ 19 ≤ w.toInt ∧ w.toInt < 2 ^ 19 :=
  ⟨by simpa using BitVec.le_toInt w, by simpa using BitVec.toInt_lt (x := w)⟩

/-- The value of a register is in the signed 20-bit range (R30). -/
theorem val_range (r : OdWord) : -2 ^ 19 ≤ val r ∧ val r < 2 ^ 19 := word_range (cellBits r)

/-- A sign-extended word has the word's value. -/
@[simp] theorem val_sext21 (w : Word) : val (sext21 w) = w.toInt := by
  rw [val, cellBits_sext21]

theorem toInt_sext21 (w : Word) : (sext21 w).toInt = w.toInt :=
  BitVec.toInt_signExtend_of_le (by decide)

/-- A sign-extended word is in normal form (R32). -/
theorem sext21_normal (w : Word) : (sext21 w).getLsbD 20 = (sext21 w).getLsbD 19 := by
  simp only [sext21, BitVec.getLsbD_signExtend, BitVec.msb_eq_getLsbD_last]
  simp

@[simp] theorem hasOverflowed_sext21 (w : Word) : hasOverflowed (sext21 w) = false := by
  rw [Bool.eq_false_iff, Ne, hasOverflowed_iff, Ne, not_not]
  exact sext21_normal w

/-- A 21-bit pattern is in normal form exactly when its 21-bit signed value is its 20-bit value. -/
theorem normal_iff_range (r : OdWord) :
    r.getLsbD 20 = r.getLsbD 19 ↔ -2 ^ 19 ≤ r.toInt ∧ r.toInt < 2 ^ 19 := by
  have h := r.isLt
  simp only [← BitVec.testBit_toNat, BitVec.toInt_eq_toNat_cond, Nat.testBit_eq_decide_div_mod_eq]
  rw [decide_eq_decide]
  omega

/-- The pattern of an exact result that fits 21 bits has overflowed exactly when the result leaves the 20-bit range
(R45, R250). -/
theorem hasOverflowed_ofInt (t : Int) (lo : -2 ^ 20 ≤ t) (hi : t < 2 ^ 20) :
    hasOverflowed (BitVec.ofInt 21 t) = true ↔ t < -2 ^ 19 ∨ 2 ^ 19 - 1 < t := by
  rw [hasOverflowed_iff, Ne, normal_iff_range, BitVec.toInt_ofInt,
    Int.bmod_eq_of_le (by omega) (by omega)]
  omega

end Sys2Proof.Machine
end

