-- ==== Sys2Proof/Tests/Slice0.lean ====
section
/-! SUPPORT. The model's own tests: the well-formedness smoke, one written-out word for each constructor of the syntax,
one step on small states with the expected values of the spec's test vectors (95_test_vectors.md, named in each
test), the step cycle, and a witness for the hypotheses of each obligation. -/

namespace Sys2Proof.Tests

open Sys2Proof Sys2Proof.Machine

/-! ### Well-formedness -/

/-- A well-formed triple (R92's example). -/
theorem test_wf_accepts : (Order.mk 1 3 10).wf = true := by decide

theorem test_wf_accepts_the_last : (Order.mk 63 7 2047).wf = true := by decide

/-- Function code 64 is refused. -/
theorem test_wf_refuses_code : (Order.mk 64 0 0).codeInRange = false ∧ (Order.mk 64 0 0).wf = false := by decide

/-- Register index 8 is refused. -/
theorem test_wf_refuses_index : (Order.mk 0 8 0).indexInRange = false ∧ (Order.mk 0 8 0).wf = false := by decide

/-- Address 2048 is refused. -/
theorem test_wf_refuses_address :
    (Order.mk 0 0 2048).addressInRange = false ∧ (Order.mk 0 0 2048).wf = false := by decide

theorem test_ill_formed_is_no_order :
    ofOrder ⟨64, 0, 0⟩ = none ∧ ofOrder ⟨0, 8, 0⟩ = none ∧ ofOrder ⟨0, 0, 2048⟩ = none := by decide

/-! ### Decoding

Each word is written out as f in 6 bits, b in 3 and n in 11 (R90), with the function code of R95. -/

theorem test_decode_stop : decode 0b00000001110000000101#20 = .stop 3 1029 := by decide
theorem test_decode_stb : decode 0b00000101100000001010#20 = .stb 3 10 := by decide
theorem test_decode_ldb : decode 0b00001010111010011011#20 = .ldb 5 1691 := by decide
theorem test_decode_adb : decode 0b00001101011111100110#20 = .adb 2 2022 := by decide
theorem test_decode_sbb : decode 0b00010011100100110001#20 = .sbb 7 305 := by decide
theorem test_decode_lib : decode 0b00010110001001111100#20 = .lib 4 636 := by decide
theorem test_decode_aib : decode 0b00011000101111000111#20 = .aib 1 967 := by decide
theorem test_decode_sib : decode 0b00011111010100010010#20 = .sib 6 1298 := by decide
theorem test_decode_anb : decode 0b00100001111001011101#20 = .anb 3 1629 := by decide
theorem test_decode_xcb : decode 0b00100100011110101000#20 = .xcb 0 1960 := by decide
theorem test_decode_rdt : decode 0b00101010100011110011#20 = .rdt 5 243 := by decide
theorem test_decode_undef11 : decode 0b00101101001000111110#20 = .undef11 2 574 := by decide
theorem test_decode_jbp : decode 0b00110011101110001001#20 = .jbp 7 905 := by decide
theorem test_decode_jbn : decode 0b00110110010011010100#20 = .jbn 4 1236 := by decide
theorem test_decode_dj1 : decode 0b00111000111000011111#20 = .dj1 1 1567 := by decide
theorem test_decode_dj2 : decode 0b00111111011101101010#20 = .dj2 6 1898 := by decide
theorem test_decode_mda : decode 0b01000001100010110101#20 = .mda 3 181 := by decide
theorem test_decode_mds : decode 0b01000100001000000000#20 = .mds 0 512 := by decide
theorem test_decode_undef18 : decode 0b01001010101101001011#20 = .undef18 5 843 := by decide
theorem test_decode_undef19 : decode 0b01001101010010010110#20 = .undef19 2 1174 := by decide
theorem test_decode_out : decode 0b01010011110111100001#20 = .out 7 1505 := by decide
theorem test_decode_jan : decode 0b01010110011100101100#20 = .jan 4 1836 := by decide
theorem test_decode_jap : decode 0b01011000100001110111#20 = .jap 1 119 := by decide
theorem test_decode_jaz : decode 0b01011111000111000010#20 = .jaz 6 450 := by decide
theorem test_decode_juf : decode 0b01100001101100001101#20 = .juf 3 781 := by decide
theorem test_decode_jof : decode 0b01100100010001011000#20 = .jof 0 1112 := by decide
theorem test_decode_jmp : decode 0b01101010110110100011#20 = .jmp 5 1443 := by decide
theorem test_decode_jsw : decode 0b01101101011011101110#20 = .jsw 2 1774 := by decide
theorem test_decode_con : decode 0b01110011100000111001#20 = .con 7 57 := by decide
theorem test_decode_dis : decode 0b01110110000110000100#20 = .dis 4 388 := by decide
theorem test_decode_undef30 : decode 0b01111000101011001111#20 = .undef30 1 719 := by decide
theorem test_decode_stl : decode 0b01111111010000011010#20 = .stl 6 1050 := by decide
theorem test_decode_lda : decode 0b10000001110101100101#20 = .lda 3 1381 := by decide
theorem test_decode_ada : decode 0b10000100011010110000#20 = .ada 0 1712 := by decide
theorem test_decode_sba : decode 0b10001010111111111011#20 = .sba 5 2043 := by decide
theorem test_decode_undef35 : decode 0b10001101000101000110#20 = .undef35 2 326 := by decide
theorem test_decode_asl : decode 0b10010011101010010001#20 = .asl 7 657 := by decide
theorem test_decode_asr : decode 0b10010110001111011100#20 = .asr 4 988 := by decide
theorem test_decode_lsl : decode 0b10011000110100100111#20 = .lsl 1 1319 := by decide
theorem test_decode_lsr : decode 0b10011111011001110010#20 = .lsr 6 1650 := by decide
theorem test_decode_lmc : decode 0b10100001111110111101#20 = .lmc 3 1981 := by decide
theorem test_decode_lmn : decode 0b10100100000100001000#20 = .lmn 0 264 := by decide
theorem test_decode_ldm : decode 0b10101010101001010011#20 = .ldm 5 595 := by decide
theorem test_decode_adm : decode 0b10101101001110011110#20 = .adm 2 926 := by decide
theorem test_decode_sbm : decode 0b10110011110011101001#20 = .sbm 7 1257 := by decide
theorem test_decode_asm : decode 0b10110110011000110100#20 = .asm 4 1588 := by decide
theorem test_decode_ssm : decode 0b10111000111101111111#20 = .ssm 1 1919 := by decide
theorem test_decode_xrm : decode 0b10111111000011001010#20 = .xrm 6 202 := by decide
theorem test_decode_anm : decode 0b11000001101000010101#20 = .anm 3 533 := by decide
theorem test_decode_xcm : decode 0b11000100001101100000#20 = .xcm 0 864 := by decide
theorem test_decode_undef50 : decode 0b11001010110010101011#20 = .undef50 5 1195 := by decide
theorem test_decode_std : decode 0b11001101010111110110#20 = .std 2 1526 := by decide
theorem test_decode_ldd : decode 0b11010011111101000001#20 = .ldd 7 1857 := by decide
theorem test_decode_add : decode 0b11010110000010001100#20 = .add 4 140 := by decide
theorem test_decode_sbd : decode 0b11011000100111010111#20 = .sbd 1 471 := by decide
theorem test_decode_lid : decode 0b11011111001100100010#20 = .lid 6 802 := by decide
theorem test_decode_mul : decode 0b11100001110001101101#20 = .mul 3 1133 := by decide
theorem test_decode_undef57 : decode 0b11100100010110111000#20 = .undef57 0 1464 := by decide
theorem test_decode_undef58 : decode 0b11101010111100000011#20 = .undef58 5 1795 := by decide
theorem test_decode_xmd : decode 0b11101101000001001110#20 = .xmd 2 78 := by decide
theorem test_decode_ldv : decode 0b11110011100110011001#20 = .ldv 7 409 := by decide
theorem test_decode_undef61 : decode 0b11110110001011100100#20 = .undef61 4 740 := by decide
theorem test_decode_undef62 : decode 0b11111000110000101111#20 = .undef62 1 1071 := by decide
theorem test_decode_undef63 : decode 0b11111111010101111010#20 = .undef63 6 1402 := by decide

theorem test_decode_refuses_21_bits : decodeNat 0x100000 = .error .notTwentyBits := by decide

theorem test_decode_accepts_20_bits : decodeNat 0xFFFFF = .ok (.undef63 7 2047) := by decide

/-- R92's example: (1, 3, 10) packs to 22538. -/
theorem test_encode : (encode (.stb 3 10)).toNat = 22538 ∧ packOrder ⟨1, 3, 10⟩ = 22538 := by decide

theorem test_table_word : decodeTableWord 24 22538 = some (.stb 3 10) := by decide

/-! ### One step

`base` is the reset state with MAIN selected. `runs st w check` places the order word `w` where `st` fetches, makes
one step and asks `check` of the next state. -/

/-- The reset state with an empty BOOT and an empty tape, and MAIN selected. -/
def base : State := { State.resetWith [] [] with sel := .main }

/-- The check holds of the next state. -/
def holds (o : Host.Outcome State Fault Refusal) (check : State → Bool) : Bool :=
  match o with
  | .next t => check t
  | _ => false

/-- One step on the order word placed where `st` fetches, with pending modifier `pm`. -/
def runsWith (pm : Option Addr) (st : State) (w : Nat) (check : State → Bool) : Bool :=
  holds (step { st.withFetchWord 20 w with pm := pm }) check

/-- One step on the order word placed where `st` fetches. -/
def runs (st : State) (w : Nat) (check : State → Bool) : Bool := runsWith none st w check

/-- V28: order 0 (0,0,0) with pending modifier 5. -/
theorem test_stop_first : runsWith (some 5) base 0x00000 (fun t =>
    t.c == 0x000005 && t.pm == none && t.stop == some .normal) = true := by decide

/-- V26: order 0 optional, switch off, status restored. -/
theorem test_stop_second : runs { base with ovf := true, stop := some .recoverableOverflow } 0x01800 (fun t =>
    t.ctr == 1) = true := by decide

/-- V1: order 1 stores B, not indexed. -/
theorem test_stb_first : runs (base.setB 3 0x123) 0x0580A (fun t =>
    t.main.read 10 == 0x00123 && t.s == 0x000123 && t.ctr == 1) = true := by decide

/-- V2: order 1 invalid address. -/
theorem test_stb_second : runs (base.setB 3 0x123) 0x05A00 (fun t =>
    t.s == 0x005A00 && t.ctr == 1 && t.stop == some .absolute) = true := by decide

/-- V3: order 2 truncates to 11 bits. -/
theorem test_ldb_first : runs { base with main := [(7, 0xABCDE)] } 0x08807 (fun t =>
    t.getB 1 == 0x4DE && t.s == 0x1ABCDE) = true := by decide

/-- V4: order 3 adds (negative cell). -/
theorem test_adb_first : runs ({ base with main := [(9, 0xFFFFF)] }.setB 2 0x005) 0x0D009 (fun t =>
    t.getB 2 == 0x004) = true := by decide

/-- V5: order 3 wraps. -/
theorem test_adb_second : runs ({ base with main := [(9, 0x00002)] }.setB 2 0x7FF) 0x0D009 (fun t =>
    t.getB 2 == 0x001) = true := by decide

/-- V6: order 4 subtracts, wraps. -/
theorem test_sbb_first : runs ({ base with main := [(9, 0x00007)] }.setB 2 0x005) 0x11009 (fun t =>
    t.getB 2 == 0x7FE) = true := by decide

/-- V8: order 5 on B[0]. -/
theorem test_lib_first : runs base 0x147FF (fun t =>
    t.getB 0 == 0x7FF) = true := by decide

/-- V9: order 6 wraps. -/
theorem test_aib_first : runs (base.setB 4 0x7F8) 0x1A00A (fun t =>
    t.getB 4 == 0x002) = true := by decide

/-- V10: order 7 wraps. -/
theorem test_sib_first : runs (base.setB 4 0x002) 0x1E00A (fun t =>
    t.getB 4 == 0x7F8) = true := by decide

/-- V11: order 8. -/
theorem test_anb_first : runs ({ base with main := [(3, 0x0013C)] }.setB 5 0x7F0) 0x22803 (fun t =>
    t.getB 5 == 0x130 && t.s == 0x00013C) = true := by decide

/-- V12: order 9 exchange. -/
theorem test_xcb_first : runs ({ base with main := [(4, 0xF0F0F)] }.setB 1 0x055) 0x24804 (fun t =>
    t.getB 1 == 0x70F && t.main.read 4 == 0x00055 && t.s == 0x000055) = true := by decide

/-- V13: order 10 reads tape. -/
theorem test_rdt_first : runs { base with tape := [22,7] } 0x29064 (fun t =>
    t.getB 2 == 0x016 && t.main.read 100 == 0x00016 && t.s == 0x000016) = true := by decide

/-- V15: order 10 masks to 5 bits. -/
theorem test_rdt_second : runs { base with tape := [63] } 0x29064 (fun t =>
    t.getB 2 == 0x01F && t.main.read 100 == 0x0001F) = true := by decide

/-- V56: undefined 11 consumes modifier. -/
theorem test_undef11_first : runsWith (some 9) base 0x2C000 (fun t =>
    t.pm == none && t.c == 0x02C009 && t.stop == some .absolute) = true := by decide

/-- V16: order 12 taken, top bit set. -/
theorem test_jbp_first : runs ({ base with ctr := 6 }.setB 1 0x7FF) 0x30828 (fun t =>
    t.ctr == 40) = true := by decide

/-- V17: order 12 not taken. -/
theorem test_jbp_second : runs ({ base with ctr := 6 }.setB 1 0x000) 0x30828 (fun t =>
    t.ctr == 7) = true := by decide

/-- V18: order 13 taken. -/
theorem test_jbn_first : runs ({ base with ctr := 6 }.setB 2 0x001) 0x35000 (fun t =>
    t.ctr == 0) = true := by decide

/-- V20: order 14 falls through. -/
theorem test_dj1_first : runs ({ base with ctr := 3 }.setB 1 0x001) 0x38802 (fun t =>
    t.getB 1 == 0x000 && t.ctr == 4) = true := by decide

/-- V21: order 14 from zero. -/
theorem test_dj1_second : runs ({ base with ctr := 3 }.setB 1 0x000) 0x38802 (fun t =>
    t.getB 1 == 0x7FF && t.ctr == 2) = true := by decide

/-- V22: order 15 through the wrap. -/
theorem test_dj2_first : runs ({ base with ctr := 3 }.setB 6 0x001) 0x3F009 (fun t =>
    t.getB 6 == 0x7FF && t.ctr == 9) = true := by decide

/-- V23: order 15 falls through. -/
theorem test_dj2_second : runs ({ base with ctr := 3 }.setB 6 0x002) 0x3F009 (fun t =>
    t.getB 6 == 0x000 && t.ctr == 4) = true := by decide

/-- V29: order 16 indexed. -/
theorem test_mda_first : runs (base.setB 2 0x00A) 0x41005 (fun t =>
    t.pm == some 15 && t.s == 0x041005) = true := by decide

/-- V30: order 16 keeps status. -/
theorem test_mda_second : runs { base with unf := true, stop := some .recoverableOverflow } 0x40002 (fun t =>
    t.pm == some 2) = true := by decide

/-- V31: order 17. -/
theorem test_mds_first : runs { base with main := [(50, 0xFFFFF)] } 0x44032 (fun t =>
    t.pm == some 2047 && t.s == 0x1FFFFF) = true := by decide

/-- V32: order 17 invalid address, status not restored. -/
theorem test_mds_second : runs { base with ovf := true, stop := some .normal } 0x44258 (fun t =>
    t.pm == none && !t.ovf && t.stop == some .absolute) = true := by decide

/-- V33: order 20. -/
theorem test_out_first : runs { base with main := [(30, 0xFFFFB)] } 0x5001E (fun t =>
    t.s == 0x1FFFFB && t.events == [.postOrder, .output (-5)]) = true := by decide

/-- V34: order 20 indexed with modifier. -/
theorem test_out_second : runsWith (some 3) ({ base with main := [(30, 0x00011)] }.setB 1 0x007) 0x50814 (fun t =>
    t.c == 0x050817 && t.s == 0x000011 && t.pm == none && t.events == [.postOrder, .output 17]) = true := by decide

/-- V35: order 21 taken. -/
theorem test_jan_first : runs { base with ctr := 4, m := 0x1FFFFF, l := 0x7FFD6 } 0x54009 (fun t =>
    t.ctr == 9) = true := by decide

/-- V36: order 21 ignores overflow digit. -/
theorem test_jan_second : runs { base with ctr := 4, m := 0x100000 } 0x54009 (fun t =>
    t.ctr == 5) = true := by decide

/-- V37: order 22 taken on L only. -/
theorem test_jap_first : runs { base with ctr := 4, m := 0x000000, l := 0x00005 } 0x58003 (fun t =>
    t.ctr == 3) = true := by decide

/-- V39: order 22 negative. -/
theorem test_jap_second : runs { base with ctr := 4, m := 0x180000, l := 0x00000 } 0x58003 (fun t =>
    t.ctr == 5) = true := by decide

/-- V41: order 23 OD only not taken. -/
theorem test_jaz_first : runs { base with ctr := 7, m := 0x100000, l := 0x00000 } 0x5C003 (fun t =>
    t.ctr == 8) = true := by decide

/-- V42: order 23 taken. -/
theorem test_jaz_second : runs ({ base with ctr := 7, m := 0x080000 }.setB 1 0x004) 0x5C803 (fun t =>
    t.ctr == 7) = true := by decide

/-- V43: order 24 taken, clears. -/
theorem test_juf_first :
    runs { base with ctr := 7, unf := true, stop := some .recoverableOverflow } 0x60009 (fun t =>
    t.ctr == 9 && !t.unf && t.stop == none) = true := by decide

/-- V44: order 24 not taken on OVF. -/
theorem test_juf_second :
    runs { base with ctr := 7, ovf := true, stop := some .recoverableOverflow } 0x60009 (fun t =>
    t.ctr == 8 && !t.ovf && t.stop == none) = true := by decide

/-- V45: order 25 taken. -/
theorem test_jof_first :
    runsWith (some 2) { base with ctr := 4, ovf := true, stop := some .recoverableOverflow } 0x64004 (fun t =>
    t.ctr == 6 && t.c == 0x064006 && !t.ovf && t.stop == none) = true := by decide

/-- V46: order 26 indexed. -/
theorem test_jmp_first : runs ({ base with ctr := 4 }.setB 1 0x007) 0x68864 (fun t =>
    t.ctr == 107) = true := by decide

/-- V47: order 26 index wraps. -/
theorem test_jmp_second : runs ({ base with ctr := 4 }.setB 1 0x7FF) 0x68805 (fun t =>
    t.ctr == 4) = true := by decide

/-- V48: order 27 toggles. -/
theorem test_jsw_first : runs { base with ctr := 4 } 0x6C000 (fun t =>
    t.ctr == 0 && t.sel == .boot) = true := by decide

/-- V49: order 28. -/
theorem test_con_first : runs { base with main := [(41, 0x001B8)] } 0x70029 (fun t =>
    t.s == 0x0001B8 && t.events == [.postOrder, .connect 1 440]) = true := by decide

/-- V50: order 28 even. -/
theorem test_con_second : runs ({ base with main := [(42, 0xFFFFF)] }.setB 2 0x002) 0x71028 (fun t =>
    t.s == 0x1FFFFF && t.events == [.postOrder, .connect 0 (-1)]) = true := by decide

/-- V52: order 29 address not checked. -/
theorem test_dis_first : runs base 0x743E9 (fun t =>
    t.s == 0x0743E9 && t.events == [.postOrder, .disconnect 1]) = true := by decide

/-- V57: order 31. -/
theorem test_stl_first : runs { base with m := 0x1FFFFF, l := 0x7FFEB } 0x7C00B (fun t =>
    t.main.read 11 == 0x7FFEB && t.s == 0x07FFEB && t.m == 0x1FFFFF) = true := by decide

/-- V58: order 32 negative. -/
theorem test_lda_first : runs { base with m := 0x000005, l := 0x00005, main := [(10, 0xFFFF9)] } 0x8000A (fun t =>
    t.m == 0x1FFFFF && t.l == 0x7FFF9 && t.s == 0x1FFFF9) = true := by decide

/-- V59: order 32 positive. -/
theorem test_lda_second : runs { base with m := 0x1FFFFF, main := [(10, 0x7FFFF)] } 0x8000A (fun t =>
    t.m == 0x000000 && t.l == 0x7FFFF) = true := by decide

/-- V61: order 33 overflow at sign crossing. -/
theorem test_ada_first : runs { base with m := 0x07FFFF, l := 0x7FFFF, main := [(12, 0x00001)] } 0x8400C (fun t =>
    t.m == 0x080000 && t.l == 0x00000 && t.ovf && t.stop == some .recoverableOverflow) = true := by decide

/-- V62: order 33 sign bit weight +1. -/
theorem test_ada_second : runs { base with m := 0x000000, l := 0x00000, main := [(12, 0xFFFFF)] } 0x8400C (fun t =>
    t.m == 0x000001 && t.l == 0x7FFFF) = true := by decide

/-- V69: order 34 underflow at sign crossing. -/
theorem test_sba_first : runs { base with m := 0x080000, l := 0x00000, main := [(12, 0x00001)] } 0x8800C (fun t =>
    t.m == 0x07FFFF && t.l == 0x7FFFF && t.unf && t.stop == some .recoverableOverflow) = true := by decide

/-- V71: order 34 undoes sign bit weight. -/
theorem test_sba_second : runs { base with m := 0x000001, l := 0x7FFFF, main := [(12, 0xFFFFF)] } 0x8800C (fun t =>
    t.m == 0x000000 && t.l == 0x00000) = true := by decide

/-- V53: undefined 35. -/
theorem test_undef35_first : runs { base with m := 0x000005 } 0x8C000 (fun t =>
    t.m == 0x000005 && t.ctr == 1 && t.stop == some .absolute) = true := by decide

/-- V78: order 36 shifted-out bits disagree. -/
theorem test_asl_first : runs { base with m := 0x1C0000, l := 0x00000 } 0x90003 (fun t =>
    t.m == 0x000000 && t.ovf && t.stop == some .recoverableOverflow) = true := by decide

/-- V86: order 36 count 1023. -/
theorem test_asl_second : runs { base with m := 0x100000, l := 0x00000 } 0x903FF (fun t =>
    t.m == 0x1FFFFF && t.l == 0x7FFFF && t.ovf && t.stop == some .recoverableOverflow) = true := by decide

/-- V90: order 37 right 20 of -42*2^19. -/
theorem test_asr_first : runs { base with m := 0x1FFFD6, l := 0x00000 } 0x94014 (fun t =>
    t.m == 0x1FFFFF && t.l == 0x7FFEB) = true := by decide

/-- V97: order 37 count -1024 = ASL overshift. -/
theorem test_asr_second : runs { base with m := 0x000000, l := 0x00001 } 0x94400 (fun t =>
    t.m == 0x000000 && t.l == 0x00000 && t.ovf && t.stop == some .recoverableOverflow) = true := by decide

/-- V101: order 38 negative count = LSR 1. -/
theorem test_lsl_first : runs { base with m := 0x1FFFFF, l := 0x7FFEB } 0x987FF (fun t =>
    t.m == 0x0FFFFF && t.l == 0x7FFF5) = true := by decide

/-- V99: order 38 left 39, no flag. -/
theorem test_lsl_second : runs { base with m := 0x000000, l := 0x00001 } 0x98027 (fun t =>
    t.m == 0x100000 && t.l == 0x00000) = true := by decide

/-- V103: order 39 right 1 of all ones. -/
theorem test_lsr_first : runs { base with m := 0x1FFFFF, l := 0x7FFFF } 0x9C001 (fun t =>
    t.m == 0x0FFFFF) = true := by decide

/-- V106: order 39 negative count = LSL 19. -/
theorem test_lsr_second : runs { base with m := 0x000000, l := 0x00005 } 0x9C7ED (fun t =>
    t.m == 0x000005 && t.l == 0x00000) = true := by decide

/-- V108: order 40 clears. -/
theorem test_lmc_first : runs { base with m := 0x000007, l := 0x00009, main := [(20, 0x12345)] } 0xA0014 (fun t =>
    t.m == 0x000000 && t.l == 0x00000 && t.s == 0x012345) = true := by decide

/-- V109: order 41 loads, L kept. -/
theorem test_lmn_first : runs { base with m := 0x000000, l := 0x00009, main := [(20, 0xFFFF9)] } 0xA4014 (fun t =>
    t.m == 0x1FFFF9 && t.s == 0x1FFFF9) = true := by decide

/-- V110: order 42 replaces. -/
theorem test_ldm_first : runs { base with m := 0x1FFFFF, l := 0x00003, main := [(20, 0x7FFFF)] } 0xA8014 (fun t =>
    t.m == 0x07FFFF && t.s == 0x07FFFF) = true := by decide

/-- V113: order 43 negative overflow. -/
theorem test_adm_first : runs { base with m := 0x180000, l := 0x00000, main := [(20, 0xFFFFF)] } 0xAC014 (fun t =>
    t.m == 0x17FFFF && t.s == 0x1FFFFF && t.unf && t.stop == some .recoverableOverflow) = true := by decide

/-- V115: order 43 M out of normal form. -/
theorem test_adm_second : runs { base with m := 0x080000, l := 0x00000, main := [(20, 0x00001)] } 0xAC014 (fun t =>
    t.m == 0x180001 && t.s == 0x000001) = true := by decide

/-- V118: order 44 minus most negative. -/
theorem test_sbm_first : runs { base with m := 0x000000, l := 0x00000, main := [(20, 0x80000)] } 0xB0014 (fun t =>
    t.m == 0x080000 && t.s == 0x180000 && t.ovf && t.stop == some .recoverableOverflow) = true := by decide

/-- V117: order 44 negative overflow. -/
theorem test_sbm_second : runs { base with m := 0x180000, l := 0x00000, main := [(20, 0x00001)] } 0xB0014 (fun t =>
    t.m == 0x17FFFF && t.s == 0x000001 && t.unf && t.stop == some .recoverableOverflow) = true := by decide

/-- V121: order 45 S overflows up. -/
theorem test_asm_first : runs { base with m := 0x000001, l := 0x00000, main := [(20, 0x7FFFF)] } 0xB4014 (fun t =>
    t.m == 0x000001 && t.s == 0x080000 && t.main.read 20 == 0x80000 &&
      t.stop == some .irrecoverableOverflow) = true := by decide

/-- V120: order 45. -/
theorem test_asm_second : runs { base with m := 0x000008, l := 0x00000, main := [(20, 0x00005)] } 0xB4014 (fun t =>
    t.m == 0x000008 && t.s == 0x00000D && t.main.read 20 == 0x0000D) = true := by decide

/-- V123: order 46. -/
theorem test_ssm_first : runs { base with m := 0x000008, l := 0x00000, main := [(20, 0x00005)] } 0xB8014 (fun t =>
    t.m == 0x000008 && t.s == 0x1FFFFD && t.main.read 20 == 0xFFFFD) = true := by decide

/-- V124: order 46 S overflows. -/
theorem test_ssm_second : runs { base with m := 0x000001, l := 0x00000, main := [(20, 0x80000)] } 0xB8014 (fun t =>
    t.m == 0x000001 && t.s == 0x17FFFF && t.main.read 20 == 0x7FFFF &&
      t.stop == some .irrecoverableOverflow) = true := by decide

/-- V125: order 47. -/
theorem test_xrm_first : runs { base with m := 0x0FF00F, l := 0x00000, main := [(20, 0xF0F0F)] } 0xBC014 (fun t =>
    t.m == 0x10FF00 && t.s == 0x1F0F0F) = true := by decide

/-- V127: order 48. -/
theorem test_anm_first : runs { base with m := 0x1FF00F, l := 0x00000, main := [(20, 0xF0F0F)] } 0xC0014 (fun t =>
    t.m == 0x1F000F && t.s == 0x1F0F0F) = true := by decide

/-- V130: order 49 overflowed M. -/
theorem test_xcm_first : runs { base with m := 0x080000, l := 0x00000, main := [(20, 0x00005)] } 0xC4014 (fun t =>
    t.m == 0x000005 && t.s == 0x080000 && t.main.read 20 == 0x80000 &&
      t.stop == some .irrecoverableOverflow) = true := by decide

/-- V131: order 49 OD set, sign clear. -/
theorem test_xcm_second : runs { base with m := 0x100003, l := 0x00000, main := [(20, 0x80000)] } 0xC4014 (fun t =>
    t.m == 0x180000 && t.s == 0x100003 && t.main.read 20 == 0x00003 &&
      t.stop == some .irrecoverableOverflow) = true := by decide

/-- V134: order 51. -/
theorem test_std_first : runs { base with d := 0x1FFFFE } 0xCC014 (fun t =>
    t.d == 0x1FFFFE && t.s == 0x1FFFFE && t.main.read 20 == 0xFFFFE) = true := by decide

/-- V135: order 51 overflowed D. -/
theorem test_std_second : runs { base with d := 0x100000 } 0xCC014 (fun t =>
    t.d == 0x100000 && t.s == 0x100000 && t.stop == some .irrecoverableOverflow) = true := by decide

/-- V136: order 52. -/
theorem test_ldd_first : runs { base with d := 0x000000, main := [(20, 0x80000)] } 0xD0014 (fun t =>
    t.d == 0x180000 && t.s == 0x180000) = true := by decide

/-- V138: order 53 overflow. -/
theorem test_add_first : runs { base with d := 0x07FFFF, main := [(20, 0x00001)] } 0xD4014 (fun t =>
    t.d == 0x080000 && t.s == 0x000001 && t.ovf && t.stop == some .recoverableOverflow) = true := by decide

/-- V139: order 54 underflow. -/
theorem test_sbd_first : runs { base with d := 0x180000, main := [(20, 0x00001)] } 0xD8014 (fun t =>
    t.d == 0x17FFFF && t.s == 0x000001 && t.unf && t.stop == some .recoverableOverflow) = true := by decide

/-- V142: order 55 max. -/
theorem test_lid_first : runs { base with d := 0x000005 } 0xDC7FF (fun t =>
    t.d == 0x0007FF && t.s == 0x1DC7FF) = true := by decide

/-- V143: order 55 b ignored, modifier applies. -/
theorem test_lid_second : runsWith (some 4) (base.setB 3 0x064) 0xDD806 (fun t =>
    t.d == 0x00000A && t.c == 0x0DD80A && t.pm == none) = true := by decide

/-- V144: order 56 6 * -7. -/
theorem test_mul_first :
    runs { base with d := 0x000006, m := 0x000005, l := 0x00005, main := [(20, 0xFFFF9)] } 0xE0014 (fun t =>
    t.d == 0x000006 && t.m == 0x1FFFFF && t.l == 0x7FFD6 && t.s == 0x1FFFF9) = true := by decide

/-- V145: order 56 most negative squared. -/
theorem test_mul_second : runs { base with d := 0x180000, main := [(20, 0x80000)] } 0xE0014 (fun t =>
    t.d == 0x180000 && t.m == 0x080000 && t.l == 0x00000 && t.s == 0x180000 && t.ovf &&
      t.stop == some .recoverableOverflow) = true := by decide

/-- V54: undefined 58. -/
theorem test_undef58_first : runs base 0xEBFFF (fun t =>
    t.ctr == 1 && t.stop == some .absolute) = true := by decide

/-- V150: order 59. -/
theorem test_xmd_first : runs { base with m := 0x123456, d := 0x0ABCDE, l := 0x00007 } 0xEC000 (fun t =>
    t.m == 0x0ABCDE && t.d == 0x123456 && t.s == 0x1EC000) = true := by decide

/-- V151: order 59 fields ignored. -/
theorem test_xmd_second : runs { base with m := 0x000001, d := 0x000002 } 0xEFFFF (fun t =>
    t.m == 0x000002 && t.d == 0x000001) = true := by decide

/-- V152: order 60. -/
theorem test_ldv_first : runs { base with d := 0x000000, main := [(20, 0xFFFFE)] } 0xF0014 (fun t =>
    t.v == 0x1FFFFE && t.s == 0x1FFFFE) = true := by decide

/-- V55: undefined 63. -/
theorem test_undef63_first : runs base 0xFC000 (fun t =>
    t.ctr == 1 && t.stop == some .absolute) = true := by decide

/-- R183: an undefined code stops the machine. -/
theorem test_undef18_first : runs base 0x48000 (fun t => t.stop == some .absolute && t.ctr == 1) = true := by decide

/-- R183: an undefined code stops the machine. -/
theorem test_undef19_first : runs base 0x4C000 (fun t => t.stop == some .absolute && t.ctr == 1) = true := by decide

/-- R183: an undefined code stops the machine. -/
theorem test_undef30_first : runs base 0x78000 (fun t => t.stop == some .absolute && t.ctr == 1) = true := by decide

/-- R183: an undefined code stops the machine. -/
theorem test_undef50_first : runs base 0xC8000 (fun t => t.stop == some .absolute && t.ctr == 1) = true := by decide

/-- R183: an undefined code stops the machine. -/
theorem test_undef57_first : runs base 0xE4000 (fun t => t.stop == some .absolute && t.ctr == 1) = true := by decide

/-- R183: an undefined code stops the machine. -/
theorem test_undef61_first : runs base 0xF4000 (fun t => t.stop == some .absolute && t.ctr == 1) = true := by decide

/-- R183: an undefined code stops the machine. -/
theorem test_undef62_first : runs base 0xF8000 (fun t => t.stop == some .absolute && t.ctr == 1) = true := by decide

/-! ### The step cycle -/

/-- G1 and G2: a fatal stop gates the step, and the modifier is kept. -/
theorem test_gate_absolute :
    step { base with stop := some .absolute, main := [(0, 0x14803)] } =
      .next { base with stop := some .absolute, main := [(0, 0x14803)] } := by rfl

theorem test_gate_irrecoverable :
    step { base with stop := some .irrecoverableOverflow, pm := some 4 } =
      .next { base with stop := some .irrecoverableOverflow, pm := some 4 } := by rfl

/-- G3: a Normal stop does not gate, and the step clears it. -/
theorem test_normal_does_not_gate :
    holds (step { base with stop := some .normal, ovf := true, main := [(0, 0x14803)] }) (fun t =>
      t.ctr == 1 && t.getB 1 == 3 && !t.ovf && t.stop == none && t.events == [.postOrder]) = true := by decide

/-- G4: the counter check keeps everything else. -/
theorem test_counter_check_main :
    holds (step { base with ctr := 512, pm := some 4, ovf := true, s := 0x111 }) (fun t =>
      t.stop == some .absolute && t.pm == some 4 && t.ovf && t.s == 0x111 &&
        t.events == [.stopped .absolute]) = true := by decide

/-- G5: no Stopped event when STOP was not none. -/
theorem test_counter_check_resumable :
    holds (step { base with ctr := 512, stop := some .normal }) (fun t =>
      t.stop == some .absolute && t.events == []) = true := by decide

/-- G6 and G7: the counter check on BOOT, empty and not. -/
theorem test_counter_check_boot :
    holds (step { State.resetWith [0x14803, 0x14804] [] with ctr := 2 }) (fun t =>
      t.stop == some .absolute && t.ctr == 2) = true := by decide

theorem test_counter_check_empty_boot :
    holds (step (State.resetWith [] [])) (fun t => t.stop == some .absolute && t.sel == .boot) = true := by decide

/-- G8: the fetch from BOOT. -/
theorem test_fetch_from_boot :
    holds (step { State.resetWith [0x14803, 0x14804] [] with ctr := 1 }) (fun t =>
      t.getB 1 == 4 && t.ctr == 2 && t.s == 0x14804 && t.c == 0x14804) = true := by decide

/-- G9: the last cell of MAIN. -/
theorem test_fetch_last_cell :
    holds (step { base with ctr := 511, main := [(511, 0x14809)] }) (fun t =>
      t.getB 1 == 9 && t.ctr == 512) = true := by decide

/-- G10: the modifier wraps in 11 bits. -/
theorem test_modifier_wraps :
    holds (step { base with main := [(0, 0x14805)], pm := some 2047 }) (fun t =>
      t.c == 0x14804 && t.s == 0x14805 && t.getB 1 == 4 && t.pm == none) = true := by decide

/-- G11: the carry never reaches the b field. -/
theorem test_modifier_carry :
    holds (step { base with main := [(0, 0x17FFF)], pm := some 1 }) (fun t =>
      t.c == 0x17800 && t.getB 7 == 0) = true := by decide

/-- The order word lands where the step fetches, whatever the state was, reset with the opaque BOOT included. -/
theorem test_with_fetch_word_at_reset :
    holds (step (State.reset.withFetchWord 24 0x14803)) (fun t => t.getB 1 == 3 && t.ctr == 1) = true := by decide

theorem test_with_fetch_word_elsewhere :
    holds (step ({ base with ctr := 600, sel := .boot, pm := some 9, stop := some .absolute }.withFetchWord 24 0x14803))
      (fun t => t.getB 1 == 3 && t.ctr == 1) = true := by decide

/-- R41: the host's reset keeps BOOT and takes a fresh tape. -/
theorem test_host_reset :
    { base with boot := [7], m := 5, ctr := 9, stop := some .absolute }.hostReset [3] =
      State.resetWith [7] [3] := by decide

/-! ### Witnesses

For each obligation with hypotheses, concrete states and operands that meet them, one for each clause. `flagged` is a
state that orders 24, 25, 0, 16 and 17 find flags in. `odd` has an M and a D out of normal form. -/

/-- The state after R115 when the order before left OVF and RecoverableOverflow. -/
def flagged : State := { base with saved := ⟨some .recoverableOverflow, true, false⟩ }

/-- The state after R115 when the order before left UNF and RecoverableOverflow. -/
def flaggedUnder : State := { base with saved := ⟨some .recoverableOverflow, false, true⟩ }

/-- M and D out of normal form, and cells at both ends of MAIN. -/
def odd : State := { base with m := 0x080000, d := 0x100003, main := [(0, 0x80000), (511, 0x7FFFF)] }

theorem witness_DecodeIsTotalAndInjective : 2 ^ 20 ≤ 2 ^ 20 ∧ 2 ^ 20 ≤ 0xFFFFFFFF := by decide

/-- From MAIN with no status and from BOOT with a flag set and a modifier pending. -/
theorem witness_StepRunsTheDecodedOrder :
    (base.stop ≠ some .absolute ∧ base.stop ≠ some .irrecoverableOverflow ∧ base.sel = .main ∧
      base.ctr.toNat < 512 ∧ base.main.read base.ctr.toNat = 0) ∧
    (∃ st : State, st.stop = some .recoverableOverflow ∧ st.sel = .boot ∧ st.pm = some 1 ∧
      st.boot[st.ctr.toNat]? = some 0x14803) ∧
    (∃ u, exec (decode 0x00000#20)
      { base with
        s := (0x00000#20).signExtend 21, c := (0x00000#20).setWidth 21, ctr := base.ctr + 1
        saved := ⟨none, false, false⟩ } = .next u) :=
  ⟨by decide,
    ⟨{ State.resetWith [0x14803] [] with stop := some .recoverableOverflow, ovf := true, pm := some 1 }, by decide⟩,
    ⟨_, rfl⟩⟩

theorem witness_FatalStopHoldsForever :
    { base with stop := some .absolute }.stop = some .absolute ∧
    { base with stop := some .irrecoverableOverflow }.stop = some .irrecoverableOverflow := by decide

/-- BOOT at its length and beyond, MAIN at 512 and at 2047, with STOP none and with a resumable stop. -/
theorem witness_CounterCheckStops :
    (∃ st : State, st.stop = none ∧ st.sel = .boot ∧ st.boot.length = st.ctr.toNat) ∧
    (∃ st : State, st.stop = some .normal ∧ st.sel = .boot ∧ st.boot.length < st.ctr.toNat) ∧
    (∃ st : State, st.stop = none ∧ st.sel = .main ∧ st.ctr.toNat = 512) ∧
    (∃ st : State, st.stop = some .recoverableOverflow ∧ st.sel = .main ∧ st.ctr.toNat = 2047) :=
  ⟨⟨{ State.resetWith [7] [] with ctr := 1 }, by decide⟩,
    ⟨{ State.resetWith [7] [] with ctr := 2, stop := some .normal }, by decide⟩,
    ⟨{ base with ctr := 512 }, by decide⟩,
    ⟨{ base with ctr := 2047, stop := some .recoverableOverflow, ovf := true }, by decide⟩⟩

/-- A step that stops, one that outputs and one that does neither. -/
theorem witness_StepEventsInOrder :
    (∃ t, base.halted = false ∧ base.fetchWord = some 0 ∧ step base = .next t ∧
      t.events = [.stopped .absolute, .postOrder]) ∧
    (∃ st t : State, st.halted = false ∧ st.fetchWord = some 0x50000 ∧ step st = .next t ∧
      t.events = [.postOrder, .output 327680]) ∧
    (∃ st t : State, st.halted = false ∧ st.fetchWord = some 0x14803 ∧ step st = .next t ∧
      t.events = [.postOrder]) :=
  ⟨⟨_, by decide, by decide, rfl, by decide⟩,
    ⟨{ base with main := [(0, 0x50000)] }, _, by decide, by decide, rfl, by decide⟩,
    ⟨{ base with main := [(0, 0x14803)] }, _, by decide, by decide, rfl, by decide⟩⟩

/-- A state with the invariant, with a flag, an M out of normal form, a pending modifier and cells in MAIN. -/
theorem witness_StepKeepsTheInvariant :
    Inv { odd with ovf := true, stop := some .recoverableOverflow, pm := some 3 } ∧
    ∃ t, step { odd with ovf := true, stop := some .recoverableOverflow, pm := some 3 } = .next t :=
  ⟨⟨by decide, by unfold StatusConsistent; decide, by decide, by unfold NormalForm; decide, rfl, rfl⟩, ⟨_, rfl⟩⟩

theorem witness_StepKeepsBootAndSwitch : ∃ t, step base = .next t := ⟨_, rfl⟩

theorem witness_InputsReachOnlyTheirOrders :
    (∃ t, exec (.stop 3 0) base = .next t) ∧ ¬codeIn (.stop 3 0) [10] ∧
    (∃ t, exec (.rdt 2 511) base = .next t) ∧ ¬codeIn (.rdt 2 511) [0] :=
  ⟨⟨_, rfl⟩, by unfold codeIn; decide, ⟨_, rfl⟩, by unfold codeIn; decide⟩

/-- An unindexed and an indexed address, each exactly 512, and the last address. -/
theorem witness_InvalidDataAddressStops :
    dataAddress (.stb 3 512) base = some 512 ∧ dataAddress (.ada 1 511) (base.setB 1 1) = some 512 ∧
    dataAddress (.std 0 2047) base = some 2047 ∧ 512 ≤ (512#11).toNat ∧ 512 ≤ (2047#11).toNat := by decide

/-- A storing order and a cell beside its own, and an order that stores nothing. -/
theorem witness_OnlyTheAddressedCellChanges :
    (∃ t, exec (.stb 3 511) base = .next t) ∧ codeIn (.stb 3 511) storingCodes ∧
    (∀ x, dataAddress (.stb 3 511) base = some x → 510 ≠ x.toNat) ∧
    (∃ t, exec (.ldb 3 511) base = .next t) ∧ ¬codeIn (.ldb 3 511) storingCodes :=
  ⟨⟨_, rfl⟩, by unfold codeIn; decide, by intro x h; cases h; decide, ⟨_, rfl⟩, by unfold codeIn; decide⟩

theorem witness_OnlyJumpsMoveCounterAndSelector :
    exec (.jsw 0 9) base = .next { base with ctr := 9, sel := .boot } ∧ jumpTarget (.jsw 0 9) base = some 9 ∧
    (∃ t, exec (.lib 1 9) base = .next t) := ⟨by rfl, by decide, ⟨_, rfl⟩⟩

theorem witness_OnlyBGroupWritesB :
    (∃ t, exec (.lib 0 9) base = .next t ∧ t.getB 0 ≠ base.getB 0 ∧ t.getB 7 = base.getB 7) ∧
    (∃ t, exec (.ldm 0 9) base = .next t) := ⟨⟨_, rfl, by decide, by decide⟩, ⟨_, rfl⟩⟩

theorem witness_OnlyTheirOrdersWriteTheRegisters :
    (∃ t, exec (.xmd 0 0) odd = .next t ∧ t.m ≠ odd.m ∧ t.d ≠ odd.d) ∧
    (∃ t, exec (.adm 0 511) odd = .next t ∧ t.s ≠ odd.s) :=
  ⟨⟨_, rfl, by decide, by decide⟩, ⟨_, rfl, by decide⟩⟩

/-- An order other than 60, order 60 with a valid and with an invalid address. -/
theorem witness_NoOrderReadsCOrV :
    ((∃ t, exec (.lda 0 511) odd = .next t) ∧ ¬codeIn (.lda 0 511) [60]) ∧
    ((∃ t, exec (.ldv 0 511) odd = .next t) ∧ codeIn (.ldv 0 511) [60] ∧
      (odd.ea (bField (.ldv 0 511)) (nField (.ldv 0 511))).toNat < 512) ∧
    ((∃ t, exec (.ldv 0 512) odd = .next t) ∧ codeIn (.ldv 0 512) [60]) :=
  ⟨⟨⟨_, rfl⟩, by unfold codeIn; decide⟩, ⟨⟨_, rfl⟩, by unfold codeIn; decide, by decide⟩,
    ⟨⟨_, rfl⟩, by unfold codeIn; decide⟩⟩

theorem witness_SavedStatusReachesFiveOrders :
    ¬codeIn (.jmp 0 4) [0, 16, 17, 24, 25] ∧ ∃ t, exec (.jmp 0 4) flagged = .next t :=
  ⟨by unfold codeIn; decide, ⟨_, rfl⟩⟩

/-- A pending modifier, at the end of its range, over an indexed order and over an unindexed one. -/
theorem witness_EffectiveAddressIsBModified :
    { base with pm := some 2047 }.pm = some 2047 ∧ bField (({ base with pm := some 2047 }).beginOrder 0x68864).decoded = 1 ∧
    bField (({ base with pm := some 0 }).beginOrder 0x68000).decoded = 0 := by decide

/-! The B-group orders use n as it stands: both ends of MAIN, and the first address beyond it. -/

theorem witness_StbStoresB : (0#11).toNat < 512 ∧ (511#11).toNat < 512 ∧ 512 ≤ (512#11).toNat := by decide

theorem witness_LdbAndSbbComputeInB : (0#11).toNat < 512 ∧ (511#11).toNat < 512 ∧ 512 ≤ (512#11).toNat := by decide

theorem witness_AdbAndAnbComputeInB : (0#11).toNat < 512 ∧ (511#11).toNat < 512 := by decide

theorem witness_XcbExchangesCellAndB : (0#11).toNat < 512 ∧ (511#11).toNat < 512 := by decide

/-- The tape empty, and a code of more than five bits. -/
theorem witness_RdtReadsOneCode :
    0 = (match base.tape with
      | [] => 0
      | x :: _ => x % 32) ∧
    31 = (match { base with tape := [63] }.tape with
      | [] => 0
      | x :: _ => x % 32) ∧
    (511#11).toNat < 512 ∧ 512 ≤ (512#11).toNat := by decide

theorem witness_BTestJumps :
    ((base.setB 0 1).getB 0).toNat ≠ 0 ∧ ((base.setB 7 0x7FF).getB 7).toNat ≠ 0 ∧ (base.getB 7).toNat = 0 := by decide

/-- The four cases of order 0. -/
theorem witness_StopCheckResolves :
    ((0#3 : BIndex) = 0 ∧ (0#11 : Addr) = 0) ∧ ((0#3 : BIndex) = 0 ∧ (1#11 : Addr) ≠ 0) ∧
    ((7#3 : BIndex) ≠ 0 ∧ { flagged with optstop := true }.optstop = true) ∧
    ((1#3 : BIndex) ≠ 0 ∧ flagged.optstop = false) := by decide

/-! The B-modified orders: the last cell and the first address beyond it, unindexed and indexed. -/

theorem witness_ModifierOrdersSetPM :
    (odd.ea 0 511).toNat < 512 ∧ ((odd.setB 1 0x7FF).ea 1 512).toNat < 512 := by decide

theorem witness_StlStoresL :
    (odd.ea 0 511).toNat < 512 ∧ ((odd.setB 1 0x7FF).ea 1 512).toNat < 512 ∧
    512 ≤ (odd.ea 0 512).toNat ∧ 512 ≤ ((odd.setB 1 1).ea 1 511).toNat := by decide

theorem witness_LdaSignExtends :
    (odd.ea 0 511).toNat < 512 ∧ ((odd.setB 1 0x7FF).ea 1 512).toNat < 512 ∧
    512 ≤ (odd.ea 0 512).toNat ∧ 512 ≤ ((odd.setB 1 1).ea 1 511).toNat := by decide

theorem witness_LoadsTakeTheSignedWord :
    (odd.ea 0 511).toNat < 512 ∧ ((odd.setB 1 0x7FF).ea 1 512).toNat < 512 ∧
    512 ≤ (odd.ea 0 512).toNat ∧ 512 ≤ ((odd.setB 1 1).ea 1 511).toNat := by decide

theorem witness_AdaAddsTheWord :
    (odd.ea 0 511).toNat < 512 ∧ ((odd.setB 1 0x7FF).ea 1 512).toNat < 512 := by decide

theorem witness_SbaSubtractsTheWord :
    (odd.ea 0 511).toNat < 512 ∧ ((odd.setB 1 0x7FF).ea 1 512).toNat < 512 := by decide

theorem witness_AddThenSubtractRestores :
    (odd.ea 0 511).toNat < 512 ∧ ((odd.setB 1 0x7FF).ea 1 512).toNat < 512 := by decide

theorem witness_LmcClearsAndLmnLoads :
    (odd.ea 0 511).toNat < 512 ∧ ((odd.setB 1 0x7FF).ea 1 512).toNat < 512 := by decide

theorem witness_SingleAddOnM :
    (odd.ea 0 511).toNat < 512 ∧ ((odd.setB 1 0x7FF).ea 1 512).toNat < 512 := by decide

theorem witness_SingleAddOnD :
    (odd.ea 0 511).toNat < 512 ∧ ((odd.setB 1 0x7FF).ea 1 512).toNat < 512 := by decide

theorem witness_LogicOnM :
    (odd.ea 0 511).toNat < 512 ∧ ((odd.setB 1 0x7FF).ea 1 512).toNat < 512 := by decide

/-- Both channels, and an address that is not checked by order 29. -/
theorem witness_OutputOrdersHandOverEvents :
    (base.ea 0 510).toNat < 512 ∧ ((0 : Fin 2).val = (base.ea 0 510).toNat % 2) ∧
    ((1 : Fin 2).val = (base.ea 0 511).toNat % 2) ∧ ((1 : Fin 2).val = (base.ea 0 1001).toNat % 2) := by decide

/-- Both flags, set and clear. -/
theorem witness_FlagJumpsReadTheSavedFlags :
    flaggedUnder.saved.unf = true ∧ flagged.saved.unf = false ∧ flagged.saved.ovf = true ∧
    flaggedUnder.saved.ovf = false := by decide

theorem witness_UnconditionalJumps : (State.resetWith [] []).sel = .boot ∧ base.sel = .main := by decide

theorem witness_UndefinedCodesStop :
    ∃ t : State, t = { base with stop := some .absolute, events := base.events ++ [.stopped .absolute] } := ⟨_, rfl⟩

/-- Counts 1, 39, 40 and 1023 to the left, and -1 and -1024 the other way. A = 2^38 is lost at 1, A = 0 never, and
A = 1 is lost at 39 and 40. -/
theorem witness_ArithmeticLeftShift :
    ((1#11).toInt = (1 : Nat) ∧ 2 ^ 39 ≤ ((0x080000#21 ++ 0x00000#19 : Acc).toInt * 2 ^ 1)) ∧
    ((39#11).toInt = (39 : Nat) ∧ 2 ^ 39 ≤ ((0x000000#21 ++ 0x00001#19 : Acc).toInt * 2 ^ 39)) ∧
    ((39#11).toInt = (39 : Nat) ∧ ¬((0x1FFFFF#21 ++ 0x7FFFF#19 : Acc).toInt * 2 ^ 39 < -2 ^ 39)) ∧
    ((40#11).toInt = (40 : Nat) ∧ (0x000000#21 ++ 0x00001#19 : Acc) ≠ 0) ∧ (1023#11).toInt = (1023 : Nat) ∧
    (2047#11).toInt = -((1 : Nat) : Int) ∧ (1024#11).toInt = -((1024 : Nat) : Int) := by decide

/-- Counts 1, 39, 40 and 1023, -1 and -1024 for the other direction, and 0. -/
theorem witness_ArithmeticRightShift :
    (1#11).toInt = (1 : Nat) ∧ (39#11).toInt = (39 : Nat) ∧ (40#11).toInt = (40 : Nat) ∧
    (1023#11).toInt = (1023 : Nat) ∧ (2047#11).toInt = -((1 : Nat) : Int) ∧
    (1024#11).toInt = -((1024 : Nat) : Int) ∧ (0#11 : Addr) = 0 := by decide

/-- The same counts for the logical shifts. -/
theorem witness_LogicalShifts :
    (1#11).toInt = (1 : Nat) ∧ (39#11).toInt = (39 : Nat) ∧ (40#11).toInt = (40 : Nat) ∧
    (1023#11).toInt = (1023 : Nat) ∧ (2047#11).toInt = -((1 : Nat) : Int) ∧
    (1024#11).toInt = -((1024 : Nat) : Int) ∧ (0#11 : Addr) = 0 := by decide

theorem witness_ShiftDirectionsAreMirrors : (0#11 : Addr) ≠ 1024#11 ∧ (1023#11 : Addr) ≠ 1024#11 ∧
    (1025#11 : Addr) ≠ 1024#11 := by decide

/-- Both ends of the range of small values. -/
theorem witness_ShiftBy19AndBackRestores :
    (-2 ^ 20 ≤ (0x1FFFFE#21 ++ 0x00000#19 : Acc).toInt ∧ (0x1FFFFE#21 ++ 0x00000#19 : Acc).toInt < 2 ^ 20) ∧
    (-2 ^ 20 ≤ (0x000001#21 ++ 0x7FFFF#19 : Acc).toInt ∧ (0x000001#21 ++ 0x7FFFF#19 : Acc).toInt < 2 ^ 20) ∧
    (0x000003#21 ++ 0x7FFFF#19 : Acc).toNat < 2 ^ 21 := by decide

/-- A sum above the range, and a difference inside and one below it. -/
theorem witness_AddMIntoTheStore :
    ({ odd with m := 1 }.ea 0 511).toNat < 512 ∧
    ((2 : Int) ^ 19 = (odd.main.read 511).toInt + ((1#21).extractLsb' 0 20).toInt) ∧
    ((2 : Int) ^ 19 - 2 = (odd.main.read 511).toInt - ((1#21).extractLsb' 0 20).toInt) ∧
    (-(2 : Int) ^ 19 - 1 = (odd.main.read 0).toInt - ((1#21).extractLsb' 0 20).toInt) := by decide

/-- M in normal form and not, order 49. -/
theorem witness_XcmExchangesCellAndM :
    (odd.ea 0 511).toNat < 512 ∧ NormalForm base.m ∧ ¬NormalForm odd.m := by unfold NormalForm; decide

/-- D in normal form and not, order 51. -/
theorem witness_StdStoresD :
    (odd.ea 0 511).toNat < 512 ∧ NormalForm base.d ∧ ¬NormalForm odd.d := by unfold NormalForm; decide

/-- The one product that overflows, and the largest that does not. -/
theorem witness_MulIsExact :
    (odd.ea 0 511).toNat < 512 ∧
    (0x80000#20).toInt * ((0x180000#21).extractLsb' 0 20).toInt = 2 ^ 38 ∧
    (0x80000#20).toInt * ((0x180001#21).extractLsb' 0 20).toInt ≠ 2 ^ 38 := by decide

end Sys2Proof.Tests
end

/-! ## What an order may write

A frame says of each part of the state that it stays as it was or may be written. Every order has the frame that the
spec's own lists of writers give it (`exec_frame`), and the statements about what orders leave alone read it off. -/

namespace Sys2Proof.Machine

/-! ### Frames -/

/-- Which parts of the state may be written. STOP is left out, since every order may stop, and so is the list of
events, of which a frame says more. -/
structure Writes where
  ctr : Prop
  b : BIndex → Prop
  m : Prop
  l : Prop
  d : Prop
  s : Prop
  v : Prop
  pm : Prop
  sel : Prop
  ovf : Prop
  unf : Prop
  main : Prop
  tape : Prop
  hook : Prop

/-- From `st` to `t` a part stays as it was unless `W` lets it be written, no event is removed, and C, OPTSTOP, BOOT
and the saved status stay in any case. By default a part is the same by definition, so the frame of an update names
only what the update writes. -/
structure Frame (W : Writes) (st t : State) : Prop where
  events : st.events <+: t.events := by exact List.prefix_rfl
  ctr : t.ctr = st.ctr ∨ W.ctr := by exact .inl rfl
  b : ∀ j, t.getB j = st.getB j ∨ W.b j := by exact fun _ => .inl rfl
  m : t.m = st.m ∨ W.m := by exact .inl rfl
  l : t.l = st.l ∨ W.l := by exact .inl rfl
  d : t.d = st.d ∨ W.d := by exact .inl rfl
  s : t.s = st.s ∨ W.s := by exact .inl rfl
  v : t.v = st.v ∨ W.v := by exact .inl rfl
  pm : t.pm = st.pm ∨ W.pm := by exact .inl rfl
  sel : t.sel = st.sel ∨ W.sel := by exact .inl rfl
  ovf : t.ovf = st.ovf ∨ W.ovf := by exact .inl rfl
  unf : t.unf = st.unf ∨ W.unf := by exact .inl rfl
  main : t.main = st.main ∨ W.main := by exact .inl rfl
  tape : t.tape = st.tape ∨ W.tape := by exact .inl rfl
  hook : t.hook = st.hook ∨ W.hook := by exact .inl rfl
  c : t.c = st.c := by rfl
  optstop : t.optstop = st.optstop := by rfl
  boot : t.boot = st.boot := by rfl
  saved : t.saved = st.saved := by rfl

/-- What stays or may be written in each of two updates stays or may be written in both together. -/
theorem same_or_written_trans {α : Type} {x y z : α} {P : Prop} (h : y = x ∨ P) (h' : z = y ∨ P) :
    z = x ∨ P := by
  obtain rfl | hp := h
  · exact h'
  · exact .inr hp

section
variable {W : Writes} {st t u : State}

theorem Frame.trans (h : Frame W st u) (h' : Frame W u t) : Frame W st t where
  events := h.events.trans h'.events
  ctr := same_or_written_trans h.ctr h'.ctr
  b j := same_or_written_trans (h.b j) (h'.b j)
  m := same_or_written_trans h.m h'.m
  l := same_or_written_trans h.l h'.l
  d := same_or_written_trans h.d h'.d
  s := same_or_written_trans h.s h'.s
  v := same_or_written_trans h.v h'.v
  pm := same_or_written_trans h.pm h'.pm
  sel := same_or_written_trans h.sel h'.sel
  ovf := same_or_written_trans h.ovf h'.ovf
  unf := same_or_written_trans h.unf h'.unf
  main := same_or_written_trans h.main h'.main
  tape := same_or_written_trans h.tape h'.tape
  hook := same_or_written_trans h.hook h'.hook
  c := h'.c.trans h.c
  optstop := h'.optstop.trans h.optstop
  boot := h'.boot.trans h.boot
  saved := h'.saved.trans h.saved

/-! ### The frame of each shared operation -/

theorem events_prefix_raiseStop (st : State) (r : StopReason) : st.events <+: (st.raiseStop r).events := by
  rw [State.raiseStop_events]
  split
  · exact List.prefix_append ..
  · exact List.prefix_rfl

theorem raiseStop_frame (r : StopReason) : Frame W st (st.raiseStop r) where
  events := events_prefix_raiseStop st r

theorem restoreStatus_frame (ho : W.ovf) (hu : W.unf) : Frame W st st.restoreStatus where
  ovf := .inr ho
  unf := .inr hu

theorem checkS_frame : Frame W st st.checkS := by
  rw [State.checkS_eq]
  split
  · exact raiseStop_frame _
  · exact {}

/-- Only the flag of a direction in which the result may leave its range is written. -/
theorem signal_frame {o : Option Overflow} (ho : o = some .positive → W.ovf) (hu : o = some .negative → W.unf) :
    Frame W st (st.signal o) := by
  match o with
  | none => exact {}
  | some .positive => exact .trans { ovf := .inr (ho rfl) } (raiseStop_frame _)
  | some .negative => exact .trans { unf := .inr (hu rfl) } (raiseStop_frame _)

/-- Order 33 flags no underflow (R203). -/
theorem addOverflow_ne_negative (x y : OdWord) : addOverflow x y ≠ some .negative := by
  unfold addOverflow
  split <;> nofun

/-- Order 34 flags no overflow (R204). -/
theorem subOverflow_ne_positive (x y : OdWord) : subOverflow x y ≠ some .positive := by
  unfold subOverflow
  split <;> nofun

theorem setB_frame {i : BIndex} {x : Addr} (h : W.b i) : Frame W st (st.setB i x) where
  b j := by
    rw [State.getB_setB]
    split
    next hj => exact .inr (hj ▸ h)
    next => exact .inl rfl

theorem jumpIf_frame {cond : Bool} {a : Addr} (h : cond = true → W.ctr) : Frame W st (st.jumpIf cond a) where
  ctr := by
    cases cond
    · exact .inl rfl
    · exact .inr (h rfl)

theorem memRead_frame {a : Addr} {rest : Word → State → State} (hs : W.s)
    (hrest : ∀ w u, Frame W u (rest w u)) : Frame W st (memRead a rest st) := by
  obtain ⟨_, h⟩ | ⟨_, h⟩ := memRead_cases a rest st <;> rw [h]
  · exact .trans { s := .inr hs } (hrest _ _)
  · exact raiseStop_frame _

theorem memWrite_frame {a : Addr} {x : OdWord} {rest : State → State} (hs : W.s) (hmain : W.main)
    (hrest : ∀ u, Frame W u (rest u)) : Frame W st (memWrite a x rest st) := by
  obtain ⟨_, h⟩ | ⟨_, h⟩ := memWrite_cases a x rest st <;> rw [h]
  · exact .trans { s := .inr hs, main := .inr hmain } (hrest _)
  · exact raiseStop_frame _

theorem withCellToB_frame {f : Addr → Word → Addr} {b : BIndex} {n : Addr} (hs : W.s) (hb : W.b b) :
    Frame W st (withCellToB f b n st) :=
  memRead_frame hs fun _ _ => setB_frame hb

theorem countingJump_frame {k : Addr} {b : BIndex} {n : Addr} (hb : W.b b)
    (hctr : (st.getB b - k != 0) = true → W.ctr) : Frame W st (countingJump k b n st) :=
  (setB_frame hb).trans (jumpIf_frame hctr)

theorem singleAddM_frame {x sign : Int} (hm : W.m) (ho : W.ovf) (hu : W.unf) :
    Frame W st (singleAddM x sign st) :=
  .trans { m := .inr hm } (signal_frame (fun _ => ho) fun _ => hu)

theorem singleAddD_frame {x sign : Int} (hd : W.d) (ho : W.ovf) (hu : W.unf) :
    Frame W st (singleAddD x sign st) :=
  .trans { d := .inr hd } (signal_frame (fun _ => ho) fun _ => hu)

theorem setAcc_frame {x : Acc} (hm : W.m) (hl : W.l) : Frame W st (st.setAcc x) where
  m := .inr hm
  l := .inr hl

/-- What the multiply and the arithmetic shift left do: A is written and a loss is a positive overflow. -/
theorem setAcc_signal_frame {x : Acc} {lost : Bool} (hm : W.m) (hl : W.l) (ho : W.ovf) :
    Frame W st ((st.setAcc x).signal (if lost then some .positive else none)) :=
  (setAcc_frame hm hl).trans <| signal_frame (fun _ => ho) fun h => by split at h <;> cases h

theorem addMToStore_frame {sign : Int} {b : BIndex} {n : Addr} (hs : W.s) (hmain : W.main) :
    Frame W st (addMToStore sign b n st) :=
  memRead_frame hs fun _ _ => memWrite_frame hs hmain fun _ => checkS_frame

theorem shiftBySigned_frame {own opposite : Nat → State → State} {n : Addr} (hown : ∀ k, Frame W st (own k st))
    (hopp : ∀ k, Frame W st (opposite k st)) : Frame W st (shiftBySigned own opposite n st) := by
  unfold shiftBySigned
  split_ifs
  · exact hown _
  · exact hopp _
  · exact {}

end

/-! ### The frame of each order -/

/-- What order `i` from `st` to `t` may write, by the spec's lists: CTR takes the target a jump names, B[b] is the
only B-register written, and S takes a word only when the order names a cell. -/
def mayWrite (i : Instr) (st t : State) : Writes where
  ctr := jumpTarget i st = some t.ctr
  b j := codeIn i [2, 3, 4, 5, 6, 7, 8, 9, 10, 14, 15] ∧ j = bField i
  m := codeIn i [32, 33, 34, 36, 37, 38, 39, 40, 41, 42, 43, 44, 47, 48, 49, 56, 59]
  l := codeIn i [32, 33, 34, 36, 37, 38, 39, 40, 56]
  d := codeIn i [52, 53, 54, 55, 59]
  s := dataAddress i st ≠ none
  v := codeIn i [60]
  pm := codeIn i [16, 17]
  sel := codeIn i [27]
  ovf := codeIn i [0, 16, 17, 33, 36, 37, 43, 44, 53, 54, 56]
  unf := codeIn i [0, 16, 17, 34, 43, 44, 53, 54]
  main := codeIn i storingCodes
  tape := codeIn i [10]
  hook := codeIn i [20, 28, 29]

/-- A list that contains the order's code, by evaluation. -/
theorem codeIn_of_elem {i : Instr} {codes : List Nat} (h : codes.elem (fcode i).toNat = true) : codeIn i codes :=
  List.mem_of_elem_eq_true h

/-- Every order keeps to its frame: one case for each way in which orders use the shared operations. -/
theorem exec_frame {i : Instr} {st t : State} (h : exec i st = .next t) : Frame (mayWrite i st t) st t := by
  cases i with
  | stop b n =>
    cases h
    change Frame _ st (if _ then _ else _)
    split_ifs
    · exact raiseStop_frame _
    · exact raiseStop_frame _
    · exact raiseStop_frame _
    · exact restoreStatus_frame (codeIn_of_elem rfl) (codeIn_of_elem rfl)
  | undef11 b n | undef18 b n | undef19 b n | undef30 b n | undef35 b n | undef50 b n | undef57 b n | undef58 b n
  | undef61 b n | undef62 b n | undef63 b n =>
    cases h
    exact raiseStop_frame _
  | stb b n | stl b n =>
    cases h
    exact memWrite_frame nofun (codeIn_of_elem rfl) fun _ => {}
  | ldb b n | adb b n | sbb b n | anb b n =>
    cases h
    exact withCellToB_frame nofun ⟨codeIn_of_elem rfl, rfl⟩
  | lib b n | aib b n | sib b n =>
    cases h
    exact setB_frame ⟨codeIn_of_elem rfl, rfl⟩
  | xcb b n =>
    cases h
    exact memRead_frame nofun fun _ _ =>
      memWrite_frame nofun (codeIn_of_elem rfl) fun _ => setB_frame ⟨codeIn_of_elem rfl, rfl⟩
  | rdt b n =>
    cases h
    change Frame _ st (if _ then _ else _)
    split_ifs
    · refine .trans (u := st.tapeAdvance) { tape := .inr (codeIn_of_elem rfl) } ?_
      refine .trans (u := st.tapeAdvance.setB b (codeToB st.tapeCode)) (setB_frame ?_) ?_
      · exact ⟨codeIn_of_elem rfl, rfl⟩
      · exact memWrite_frame nofun (codeIn_of_elem rfl) fun _ => {}
    · exact raiseStop_frame _
  | jbp b n | jbn b n | jan b n | jap b n | jaz b n | juf b n | jof b n =>
    cases h
    exact jumpIf_frame fun hc => congrArg some (if_pos hc).symm
  | dj1 b n | dj2 b n =>
    cases h
    exact countingJump_frame ⟨codeIn_of_elem rfl, rfl⟩ fun hc => congrArg some (if_pos hc).symm
  | jmp b n =>
    cases h
    exact { ctr := .inr rfl }
  | jsw b n =>
    cases h
    exact { ctr := .inr rfl, sel := .inr (codeIn_of_elem rfl) }
  | mda b n =>
    cases h
    exact .trans { pm := .inr (codeIn_of_elem rfl) }
      (restoreStatus_frame (codeIn_of_elem rfl) (codeIn_of_elem rfl))
  | mds b n =>
    cases h
    exact memRead_frame nofun fun _ _ => .trans { pm := .inr (codeIn_of_elem rfl) }
      (restoreStatus_frame (codeIn_of_elem rfl) (codeIn_of_elem rfl))
  | out b n | con b n =>
    cases h
    exact memRead_frame nofun fun _ _ => { hook := .inr (codeIn_of_elem rfl) }
  | dis b n =>
    cases h
    exact { hook := .inr (codeIn_of_elem rfl) }
  | lda b n | lmc b n =>
    cases h
    exact memRead_frame nofun fun _ _ => { m := .inr (codeIn_of_elem rfl), l := .inr (codeIn_of_elem rfl) }
  | ada b n =>
    cases h
    exact memRead_frame nofun fun _ _ =>
      .trans { m := .inr (codeIn_of_elem rfl), l := .inr (codeIn_of_elem rfl) }
        (signal_frame (fun _ => codeIn_of_elem rfl) fun ho => absurd ho (addOverflow_ne_negative _ _))
  | sba b n =>
    cases h
    exact memRead_frame nofun fun _ _ =>
      .trans { m := .inr (codeIn_of_elem rfl), l := .inr (codeIn_of_elem rfl) }
        (signal_frame (fun ho => absurd ho (subOverflow_ne_positive _ _)) fun _ => codeIn_of_elem rfl)
  | asl b n =>
    cases h
    exact shiftBySigned_frame
      (fun _ => setAcc_signal_frame (codeIn_of_elem rfl) (codeIn_of_elem rfl) (codeIn_of_elem rfl))
      fun _ => setAcc_frame (codeIn_of_elem rfl) (codeIn_of_elem rfl)
  | asr b n =>
    cases h
    exact shiftBySigned_frame (fun _ => setAcc_frame (codeIn_of_elem rfl) (codeIn_of_elem rfl))
      fun _ => setAcc_signal_frame (codeIn_of_elem rfl) (codeIn_of_elem rfl) (codeIn_of_elem rfl)
  | lsl b n | lsr b n =>
    cases h
    exact shiftBySigned_frame (fun _ => setAcc_frame (codeIn_of_elem rfl) (codeIn_of_elem rfl))
      fun _ => setAcc_frame (codeIn_of_elem rfl) (codeIn_of_elem rfl)
  | lmn b n | ldm b n | xrm b n | anm b n =>
    cases h
    exact memRead_frame nofun fun _ _ => { m := .inr (codeIn_of_elem rfl) }
  | adm b n | sbm b n =>
    cases h
    exact memRead_frame nofun fun _ _ =>
      singleAddM_frame (codeIn_of_elem rfl) (codeIn_of_elem rfl) (codeIn_of_elem rfl)
  | asm b n | ssm b n =>
    cases h
    exact addMToStore_frame nofun (codeIn_of_elem rfl)
  | xcm b n =>
    cases h
    exact memRead_frame nofun fun _ _ => memWrite_frame nofun (codeIn_of_elem rfl) fun _ =>
      .trans { m := .inr (codeIn_of_elem rfl) } checkS_frame
  | std b n =>
    cases h
    exact memWrite_frame nofun (codeIn_of_elem rfl) fun _ => checkS_frame
  | ldd b n =>
    cases h
    exact memRead_frame nofun fun _ _ => { d := .inr (codeIn_of_elem rfl) }
  | add b n | sbd b n =>
    cases h
    exact memRead_frame nofun fun _ _ =>
      singleAddD_frame (codeIn_of_elem rfl) (codeIn_of_elem rfl) (codeIn_of_elem rfl)
  | lid b n =>
    cases h
    exact { d := .inr (codeIn_of_elem rfl) }
  | mul b n =>
    cases h
    exact memRead_frame nofun fun _ _ =>
      setAcc_signal_frame (codeIn_of_elem rfl) (codeIn_of_elem rfl) (codeIn_of_elem rfl)
  | xmd b n =>
    cases h
    exact { m := .inr (codeIn_of_elem rfl), d := .inr (codeIn_of_elem rfl) }
  | ldv b n =>
    cases h
    exact memRead_frame nofun fun _ _ => { v := .inr (codeIn_of_elem rfl) }

end Sys2Proof.Machine

/-! ## What an order does not read

Changing a part of the state that an order neither reads nor writes changes nothing in what the order answers but that
part. The parts are those that only a few orders read: C, V, the saved status and the host's inputs. -/

namespace Sys2Proof.Machine

/-- Other contents for the parts that few orders read, none where the part keeps what it holds. -/
structure Override where
  c : Option OdWord := none
  v : Option OdWord := none
  saved : Option Status := none
  optstop : Option Bool := none
  boot : Option (List Word) := none
  tape : Option (List Nat) := none

/-- The state with the other contents put in. -/
def Override.apply (o : Override) (st : State) : State :=
  { st with
    c := o.c.getD st.c
    v := o.v.getD st.v
    saved := o.saved.getD st.saved
    optstop := o.optstop.getD st.optstop
    boot := o.boot.getD st.boot
    tape := o.tape.getD st.tape }

section
variable {o : Override} {st : State}

/-! ### The shared operations read none of these parts -/

theorem signal_apply (x : Option Overflow) : (o.apply st).signal x = o.apply (st.signal x) := by
  match x with
  | none => rfl
  | some .positive => rfl
  | some .negative => rfl

theorem saved_apply (h : o.saved = none) : (o.apply st).saved = st.saved := by
  simp [Override.apply, h]

theorem restoreStatus_apply (h : o.saved = none) : (o.apply st).restoreStatus = o.apply st.restoreStatus := by
  simp [Override.apply, State.restoreStatus, h]

theorem setPm_restoreStatus_apply {x : Option Addr} (h : o.saved = none) :
    { o.apply st with pm := x }.restoreStatus = o.apply { st with pm := x }.restoreStatus :=
  restoreStatus_apply (st := { st with pm := x }) h

theorem tapeCode_apply (h : o.tape = none) : (o.apply st).tapeCode = st.tapeCode := by
  simp [Override.apply, State.tapeCode, h]

theorem tapeAdvance_apply (h : o.tape = none) : (o.apply st).tapeAdvance = o.apply st.tapeAdvance := by
  simp [Override.apply, State.tapeAdvance, h]

theorem checkS_apply : (o.apply st).checkS = o.apply st.checkS := by
  rw [State.checkS_eq, State.checkS_eq, apply_ite o.apply]
  rfl

theorem memRead_apply {a : Addr} {rest : Word → State → State}
    (hrest : ∀ w u, rest w (o.apply u) = o.apply (rest w u)) :
    memRead a rest (o.apply st) = o.apply (memRead a rest st) := by
  rw [memRead, memRead, apply_ite o.apply, ← hrest]
  rfl

theorem memWrite_apply {a : Addr} {x : OdWord} {rest : State → State}
    (hrest : ∀ u, rest (o.apply u) = o.apply (rest u)) :
    memWrite a x rest (o.apply st) = o.apply (memWrite a x rest st) := by
  rw [memWrite, memWrite, apply_ite o.apply, ← hrest]
  rfl

theorem withCellToB_apply {f : Addr → Word → Addr} {b : BIndex} {n : Addr} :
    withCellToB f b n (o.apply st) = o.apply (withCellToB f b n st) :=
  memRead_apply fun _ _ => rfl

theorem singleAddM_apply {x sign : Int} : singleAddM x sign (o.apply st) = o.apply (singleAddM x sign st) :=
  signal_apply (st := { st with m := singleValue st.m x sign }) _

theorem singleAddD_apply {x sign : Int} : singleAddD x sign (o.apply st) = o.apply (singleAddD x sign st) :=
  signal_apply (st := { st with d := singleValue st.d x sign }) _

theorem setML_signal_apply {m : OdWord} {l : Low} {x : Option Overflow} :
    { o.apply st with m := m, l := l }.signal x = o.apply ({ st with m := m, l := l }.signal x) :=
  signal_apply (st := { st with m := m, l := l }) x

theorem shiftAsl_apply (k : Nat) : shiftAsl k (o.apply st) = o.apply (shiftAsl k st) :=
  setML_signal_apply

theorem addMToStore_apply {sign : Int} {b : BIndex} {n : Addr} :
    addMToStore sign b n (o.apply st) = o.apply (addMToStore sign b n st) :=
  memRead_apply fun _ _ => memWrite_apply fun _ => checkS_apply

theorem shiftBySigned_apply {own opposite : Nat → State → State} {n : Addr}
    (hown : ∀ k, own k (o.apply st) = o.apply (own k st))
    (hopp : ∀ k, opposite k (o.apply st) = o.apply (opposite k st)) :
    shiftBySigned own opposite n (o.apply st) = o.apply (shiftBySigned own opposite n st) := by
  unfold shiftBySigned
  split_ifs
  · exact hown _
  · exact hopp _
  · rfl

end

/-! ### Which orders read them -/

theorem next_congr {s t : State} (h : s = t) : (.next s : Host.Outcome State Fault Refusal) = .next t :=
  congrArg Host.Outcome.next h

/-- An order answers on a state with an override what it answers without it, overridden, when the orders that do touch
a part find it as it was: order 60 writes V, orders 0, 16, 17, 24 and 25 read the saved status, order 0 reads OPTSTOP
and order 10 moves the tape (R28, R29, R37, R39, R40, R155). -/
theorem exec_apply {i : Instr} {st t : State} (o : Override) (h : exec i st = .next t)
    (hv : codeIn i [60] → o.v = none) (hsaved : codeIn i [0, 16, 17, 24, 25] → o.saved = none)
    (hopt : codeIn i [0] → o.optstop = none) (htape : codeIn i [10] → o.tape = none) :
    exec i (o.apply st) = .next (o.apply t) := by
  cases i with
  | stop b n =>
    cases h
    have hoff : (o.apply st).optstop = st.optstop := by simp [Override.apply, hopt (codeIn_of_elem rfl)]
    refine next_congr ?_
    rw [hoff, restoreStatus_apply (hsaved (codeIn_of_elem rfl))]
    simp only [apply_ite o.apply]
    rfl
  | undef11 b n | undef18 b n | undef19 b n | undef30 b n | undef35 b n | undef50 b n | undef57 b n | undef58 b n
  | undef61 b n | undef62 b n | undef63 b n =>
    cases h
    rfl
  | lib b n | aib b n | sib b n | jbp b n | jbn b n | dj1 b n | dj2 b n | jan b n | jap b n | jaz b n | jmp b n
  | jsw b n | dis b n | lid b n | xmd b n =>
    cases h
    rfl
  | juf b n | jof b n =>
    cases h
    refine next_congr ?_
    rw [saved_apply (hsaved (codeIn_of_elem rfl))]
    rfl
  | mda b n =>
    cases h
    exact next_congr (setPm_restoreStatus_apply (hsaved (codeIn_of_elem rfl)))
  | mds b n =>
    cases h
    exact next_congr (memRead_apply fun _ _ => setPm_restoreStatus_apply (hsaved (codeIn_of_elem rfl)))
  | stb b n | stl b n =>
    cases h
    exact next_congr (memWrite_apply fun _ => rfl)
  | std b n =>
    cases h
    exact next_congr (memWrite_apply fun _ => checkS_apply)
  | ldb b n | adb b n | sbb b n | anb b n =>
    cases h
    exact next_congr withCellToB_apply
  | xcb b n =>
    cases h
    exact next_congr (memRead_apply fun _ _ => memWrite_apply fun _ => rfl)
  | rdt b n =>
    cases h
    refine next_congr ?_
    rw [tapeCode_apply (htape (codeIn_of_elem rfl)), tapeAdvance_apply (htape (codeIn_of_elem rfl)),
      apply_ite o.apply]
    exact congrArg₂ (ite _) (memWrite_apply (st := st.tapeAdvance.setB b (codeToB st.tapeCode)) fun _ => rfl) rfl
  | out b n | con b n | lda b n | lmc b n | lmn b n | ldm b n | xrm b n | anm b n | ldd b n =>
    cases h
    exact next_congr (memRead_apply fun _ _ => rfl)
  | ada b n | sba b n =>
    cases h
    exact next_congr (memRead_apply fun _ _ => setML_signal_apply)
  | adm b n | sbm b n =>
    cases h
    exact next_congr (memRead_apply fun _ _ => singleAddM_apply)
  | add b n | sbd b n =>
    cases h
    exact next_congr (memRead_apply fun _ _ => singleAddD_apply)
  | mul b n =>
    cases h
    exact next_congr (memRead_apply fun _ _ => setML_signal_apply)
  | asm b n | ssm b n =>
    cases h
    exact next_congr addMToStore_apply
  | xcm b n =>
    cases h
    exact next_congr (memRead_apply fun w _ => memWrite_apply fun u => checkS_apply (st := { u with m := sext21 w }))
  | asl b n =>
    cases h
    exact next_congr (shiftBySigned_apply shiftAsl_apply fun _ => rfl)
  | asr b n =>
    cases h
    exact next_congr (shiftBySigned_apply (fun _ => rfl) shiftAsl_apply)
  | lsl b n | lsr b n =>
    cases h
    exact next_congr (shiftBySigned_apply (fun _ => rfl) fun _ => rfl)
  | ldv b n =>
    cases h
    have hn := hv (codeIn_of_elem rfl)
    exact next_congr (memRead_apply fun _ _ => by simp [Override.apply, hn])

/-! ### Order 60 -/

theorem eq_ldv_of_codeIn {i : Instr} (h : codeIn i [60]) : i = .ldv (bField i) (nField i) := by
  cases i with
  | ldv b n => rfl
  | _ => nomatch h

/-- Order 60 at a valid address: S and V take the cell's mirror (R287). -/
theorem exec_ldv_valid (b : BIndex) (n : Addr) (st : State) (h : (st.ea b n).toNat < 512) :
    exec (.ldv b n) st =
      .next { st with s := sext21 (st.main.read (st.ea b n).toNat), v := sext21 (st.main.read (st.ea b n).toNat) } :=
  next_congr (memRead_valid _ _ _ h)

/-- With a valid address order 60 overwrites V, so V's old contents are lost (R287). -/
theorem exec_ldv_setV (b : BIndex) (n : Addr) (st : State) (y : OdWord) (h : (st.ea b n).toNat < 512) :
    exec (.ldv b n) { st with v := y } = exec (.ldv b n) st :=
  (exec_ldv_valid b n { st with v := y } h).trans (exec_ldv_valid b n st h).symm

end Sys2Proof.Machine

/-! ## What a step may do -/

namespace Sys2Proof.Machine

/-- Whatever a step answers is the state as it was after a fatal stop, the Absolute stop of the counter check, or
what an order made of the state it was given, with the events of the step's end. -/
theorem step_cases {st t : State} (h : step st = .next t) :
    (st.halted = true ∧ t = st) ∨
    (st.fetchWord = none ∧ t = st.raiseStop .absolute) ∨
    ∃ w u, st.fetchWord = some w ∧ exec (st.beginOrder w).decoded (st.beginOrder w) = .next u ∧ t = u.endOrder := by
  unfold step at h
  split at h
  next hh =>
    cases h
    exact .inl ⟨hh, rfl⟩
  next =>
    split at h
    next hw =>
      cases h
      exact .inr (.inl ⟨hw, rfl⟩)
    next w hw =>
      unfold finishOrder at h
      split at h <;> cases h
      next u hu => exact .inr (.inr ⟨w, u, hw, hu, rfl⟩)

/-- What a step does before dispatch touches no input of the host and no event. -/
theorem State.beginOrder_inputs (st : State) (w : Word) :
    (st.beginOrder w).boot = st.boot ∧ (st.beginOrder w).optstop = st.optstop ∧
      (st.beginOrder w).events = st.events := by
  simp [State.beginOrder, State.loadOrder]

end Sys2Proof.Machine

/-! ## The statements on frames -/

section
open Sys2Proof Sys2Proof.Machine

/-- Settles O14: the order has a frame, and what the step does around it adds events at the end. -/
theorem stepKeepsBootAndSwitch : Obligations.StepKeepsBootAndSwitch := by
  intro st t h
  obtain ⟨_, rfl⟩ | ⟨_, rfl⟩ | ⟨w, u, _, hu, rfl⟩ := step_cases h
  · exact ⟨rfl, rfl, [], by simp⟩
  · obtain ⟨more, hmore⟩ := events_prefix_raiseStop st .absolute
    exact ⟨rfl, rfl, more, hmore.symm⟩
  · have hf := exec_frame hu
    obtain ⟨hboot, hopt, hev⟩ := st.beginOrder_inputs w
    obtain ⟨more, hmore⟩ := hf.events
    refine ⟨hf.boot.trans hboot, hf.optstop.trans hopt, more ++ [.postOrder] ++ u.hook.toList, ?_⟩
    simp [State.endOrder, ← hmore, hev]

/-- Settles O18: CTR and SEL in the frame of the order. -/
theorem onlyJumpsMoveCounterAndSelector : Obligations.OnlyJumpsMoveCounterAndSelector := by
  intro i st t h
  exact ⟨(exec_frame h).ctr, (exec_frame h).sel⟩

/-- Settles O19: the B-registers in the frame of the order. -/
theorem onlyBGroupWritesB : Obligations.OnlyBGroupWritesB := by
  intro i st t j h
  exact (exec_frame h).b j

/-- Settles O20: the registers, the flags and the output event in the frame of the order. -/
theorem onlyTheirOrdersWriteTheRegisters : Obligations.OnlyTheirOrdersWriteTheRegisters := by
  intro i st t h
  have hf := exec_frame h
  have hd : t.d = st.d ∨ codeIn i [52, 53, 54, 59] ∨ codeIn i [55] := by
    refine hf.d.imp_right fun (hc : codeIn i [52, 53, 54, 55, 59]) => ?_
    simp only [codeIn, List.mem_cons, List.not_mem_nil, or_false] at hc ⊢
    omega
  exact ⟨hf.m, hf.l, hd, hf.v, hf.s, hf.pm, hf.ovf, hf.unf, hf.hook, hf.c, hf.saved⟩

/-! ## The statements on what is not read -/

/-- Settles O21: C and V are overridden, and order 60 with a valid address overwrites V itself. -/
theorem noOrderReadsCOrV : Obligations.NoOrderReadsCOrV := by
  intro i st t x y h
  have hc : exec i { st with c := x } = .next { t with c := x } :=
    exec_apply { c := some x } h (fun _ => rfl) (fun _ => rfl) (fun _ => rfl) fun _ => rfl
  refine ⟨fun hi => ?_, fun _ => hc, fun hi ha => ?_⟩
  · exact exec_apply { c := some x, v := some y } h (fun h60 => absurd h60 hi)
      (fun _ => rfl) (fun _ => rfl) fun _ => rfl
  · rw [eq_ldv_of_codeIn hi] at hc ⊢
    exact (exec_ldv_setV _ _ { st with c := x } y ha).trans hc

/-- Settles O22: the saved status is overridden. -/
theorem savedStatusReachesFiveOrders : Obligations.SavedStatusReachesFiveOrders := by
  intro i st t x hi h
  exact exec_apply { saved := some x } h (fun _ => rfl) (fun h5 => absurd h5 hi) (fun _ => rfl) fun _ => rfl

/-! ## The statements on reset -/

/-- Settles O12: MAIN is empty, STOP is none with both flags clear, and every register is zero. -/
theorem resetMeetsTheInvariant : Obligations.ResetMeetsTheInvariant where
  memory := Memory.nil_wf
  status := by simp [StatusConsistent, State.reset, State.resetWith]
  control := rfl
  inspection := rfl
  saved := rfl
  hook := rfl

/-- Settles O13: each value is the one `State.resetWith` gives, and a fresh B-register file reads 0 everywhere. -/
theorem resetLeavesTheStatedValues : Obligations.ResetLeavesTheStatedValues := by
  have hb : ∀ i, State.reset.getB i = 0 := fun i => by
    simp [State.getB, State.reset, State.resetWith]
  exact ⟨rfl, rfl, rfl, rfl, rfl, rfl, hb, rfl, rfl, rfl, rfl, rfl, rfl, Memory.read_nil, rfl, rfl, fun _ _ => rfl⟩

end

/-! ## The data accesses of the orders

An order reaches MAIN through `memRead`, `memWrite` and the address check of order 10 alone, each at the address that
`dataAddress` names. -/

namespace Sys2Proof.Machine

section
variable {st : State} {x : Addr} {a : Nat}

/-! ### The cells each access primitive leaves as they read -/

/-- A read leaves MAIN to the rest of the order, which starts from a state with the same MAIN. -/
theorem memRead_read_eq {rest : Word → State → State}
    (hrest : ∀ w u, u.main = st.main → (rest w u).main.read a = st.main.read a) :
    (memRead x rest st).main.read a = st.main.read a := by
  obtain ⟨_, h⟩ | ⟨_, h⟩ := memRead_cases x rest st <;> rw [h]
  · exact hrest _ _ rfl
  · rfl

/-- A write changes no cell but the addressed one when the rest of the order keeps MAIN (R68). -/
theorem memWrite_read_other {mirror : OdWord} {rest : State → State} (ha : a ≠ x.toNat)
    (hrest : ∀ u, (rest u).main = u.main) : (memWrite x mirror rest st).main.read a = st.main.read a := by
  obtain ⟨_, h⟩ | ⟨_, h⟩ := memWrite_cases x mirror rest st <;> rw [h]
  · rw [hrest, Memory.read_write, if_neg ha]
  · rfl

/-- Orders 9, 45, 46 and 49 write the cell they have read. -/
theorem memRead_memWrite_read_other {mirror : Word → State → OdWord} {rest : Word → State → State}
    (ha : a ≠ x.toNat) (hrest : ∀ w u, (rest w u).main = u.main) :
    (memRead x (fun w u => memWrite x (mirror w u) (rest w) u) st).main.read a = st.main.read a :=
  memRead_read_eq fun w u hu => by rw [memWrite_read_other ha (hrest w), hu]

/-! ### The orders -/

/-- An order that stores names a cell, and every other cell reads as before (R61, R68). -/
theorem exec_read_other {i : Instr} {t : State} (h : exec i st = .next t)
    (ha : codeIn i storingCodes → ∀ x, dataAddress i st = some x → a ≠ x.toNat) :
    t.main.read a = st.main.read a := by
  by_cases hi : codeIn i storingCodes
  case neg => rw [(exec_frame h).main.resolve_right hi]
  replace ha := ha hi
  cases i with
  | stb b n | stl b n =>
    cases h
    exact memWrite_read_other (ha _ rfl) fun _ => rfl
  | std b n =>
    cases h
    exact memWrite_read_other (ha _ rfl) State.checkS_main
  | xcb b n =>
    cases h
    exact memRead_memWrite_read_other (ha _ rfl) fun _ _ => rfl
  | asm b n | ssm b n =>
    cases h
    exact memRead_memWrite_read_other (ha _ rfl) fun _ => State.checkS_main
  | xcm b n =>
    cases h
    exact memRead_memWrite_read_other (ha _ rfl) fun _ _ => State.checkS_main _
  | rdt b n =>
    cases h
    split_ifs
    · exact memWrite_read_other (ha _ rfl) fun _ => rfl
    · rfl
  | _ => nomatch hi

/-- An order that names an address of 512 or more makes the Absolute stop its whole effect: the check is the first
thing it does, before order 10 moves the tape too (R66, R121, D25). -/
theorem exec_invalid_address {i : Instr} (h : dataAddress i st = some x) (hx : 512 ≤ x.toNat) :
    exec i st = .next (st.raiseStop .absolute) := by
  cases i with
  | stb b n | stl b n | std b n =>
    cases h
    exact next_congr (memWrite_invalid _ _ _ _ hx)
  | rdt b n =>
    cases h
    exact next_congr (if_neg (mt (validAddr_iff _).mp (Nat.not_lt.mpr hx)))
  | ldb b n | adb b n | sbb b n | anb b n | xcb b n | mds b n | out b n | con b n | lda b n | ada b n | sba b n
  | lmc b n | lmn b n | ldm b n | adm b n | sbm b n | asm b n | ssm b n | xrm b n | anm b n | xcm b n | ldd b n
  | add b n | sbd b n | mul b n | ldv b n =>
    cases h
    exact next_congr (memRead_invalid _ _ _ hx)
  | _ => nomatch h

end

end Sys2Proof.Machine

/-! ## The statements on the main store -/

section
open Sys2Proof Sys2Proof.Machine

/-- Settles O16: the Absolute stop written out. -/
theorem invalidDataAddressStops : Obligations.InvalidDataAddressStops := by
  intro i st a h ha
  exact exec_invalid_address h ha

/-- Settles O17: a cell that the order does not write reads as before. -/
theorem onlyTheAddressedCellChanges : Obligations.OnlyTheAddressedCellChanges := by
  intro i st t h a ha
  exact exec_read_other h ha

end

/-! ## The order format

An order is its three fields. The encoder packs them, the decoder looks the code up in the table and hands the other
two over unread, and the pending modifier is a sum in the n field. Each fact is said once of `ofFields`, `encode` or
`beginOrder`, and the statements on encoding read it off. -/

namespace Sys2Proof

/-! ### The table -/

/-- The table lists the orders in the order of their codes (R95). -/
theorem orderTable_fcode (b : BIndex) (n : Addr) :
    orderTable.map (fun order => fcode (order b n)) = (List.range 64).map (BitVec.ofNat 6) := rfl

theorem bField_of_mem_orderTable (b : BIndex) (n : Addr) : ∀ order ∈ orderTable, bField (order b n) = b :=
  List.map_eq_replicate_iff.mp rfl

theorem nField_of_mem_orderTable (b : BIndex) (n : Addr) : ∀ order ∈ orderTable, nField (order b n) = n :=
  List.map_eq_replicate_iff.mp rfl

theorem toNat_lt_orderTable_length (f : FCode) : f.toNat < orderTable.length :=
  orderTable_length ▸ f.isLt

/-- No code falls outside the table, so the default of `ofFields` is never taken (R91). -/
theorem ofFields_eq_getElem (f : FCode) (b : BIndex) (n : Addr) :
    ofFields f b n = (orderTable[f.toNat]'(toNat_lt_orderTable_length f)) b n := by
  rw [ofFields, List.getD_eq_getElem]

/-! ### Orders and their fields -/

@[simp] theorem fcode_ofFields (f : FCode) (b : BIndex) (n : Addr) : fcode (ofFields f b n) = f := by
  have h := congrArg (·[f.toNat]?) (orderTable_fcode b n)
  simpa [ofFields_eq_getElem, toNat_lt_orderTable_length, f.isLt] using h

@[simp] theorem bField_ofFields (f : FCode) (b : BIndex) (n : Addr) : bField (ofFields f b n) = b := by
  rw [ofFields_eq_getElem]
  exact bField_of_mem_orderTable b n _ (List.getElem_mem _)

@[simp] theorem nField_ofFields (f : FCode) (b : BIndex) (n : Addr) : nField (ofFields f b n) = n := by
  rw [ofFields_eq_getElem]
  exact nField_of_mem_orderTable b n _ (List.getElem_mem _)

/-- An order is the order of its code with its fields. -/
@[simp] theorem ofFields_fields (i : Instr) : ofFields (fcode i) (bField i) (nField i) = i := by
  cases i <;> rfl

/-! ### Words and orders -/

@[simp] theorem decode_encode (i : Instr) : decode (encode i) = i :=
  (decode_append _ _ _).trans (ofFields_fields i)

@[simp] theorem encode_decode (w : Word) : encode (decode w) = w := by
  simp only [encode, decode, fcode_ofFields, bField_ofFields, nField_ofFields, append_fields]

/-- Fields packed together make the number of R92. -/
theorem toNat_append_fields (f : FCode) (b : BIndex) (n : Addr) :
    (f ++ b ++ n : Word).toNat = f.toNat * 2 ^ 14 + b.toNat * 2 ^ 11 + n.toNat := by
  rw [BitVec.toNat_append, BitVec.toNat_append, ← Nat.shiftLeft_add_eq_or_of_lt b.isLt,
    ← Nat.shiftLeft_add_eq_or_of_lt n.isLt, Nat.shiftLeft_eq, Nat.shiftLeft_eq]
  ring

/-- The encoder computes the packing of R92. -/
theorem toNat_encode (i : Instr) : (encode i).toNat = packOrder (toOrder i) :=
  toNat_append_fields (fcode i) (bField i) (nField i)

/-! ### Written triples and numbers -/

@[simp] theorem ofOrder_toOrder (i : Instr) : ofOrder (toOrder i) = some i := by
  have hwf : (toOrder i).wf = true := Laws.WellFormedOrder i
  rw [ofOrder, if_pos hwf]
  simp only [toOrder, BitVec.ofNat_toNat, BitVec.setWidth_eq, ofFields_fields]

theorem decodeNat_toNat (w : Word) : decodeNat w.toNat = .ok (decode w) := by
  rw [decodeNat, if_pos w.isLt, BitVec.ofNat_toNat, BitVec.setWidth_eq]

theorem decodeNat_of_le {k : Nat} (h : 2 ^ 20 ≤ k) : decodeNat k = .error .notTwentyBits :=
  if_neg (Nat.not_lt.mpr h)

end Sys2Proof

namespace Sys2Proof.Machine

/-! ### The pending modifier -/

/-- The order in C after a modifier `x` was added into the word `w`: C[10:0] alone moves (R98, R114). -/
theorem cellBits_addToN (w : Word) (x : Addr) :
    cellBits (addToN (zext21 w) x) = fieldF w ++ fieldB w ++ (fieldN w + x) := by
  have hn : (zext21 w).extractLsb' 0 11 = fieldN w := by
    apply BitVec.eq_of_getLsbD_eq
    intro k hk
    simp only [zext21, fieldN, BitVec.getLsbD_extractLsb', BitVec.getLsbD_setWidth]
    grind
  rw [addToN, hn]
  apply BitVec.eq_of_getLsbD_eq
  intro k hk
  simp only [cellBits, zext21, fieldF, fieldB, BitVec.getLsbD_append, BitVec.getLsbD_extractLsb',
    BitVec.getLsbD_setWidth]
  grind

/-- No modifier pending is the modifier 0. -/
theorem cellBits_beginOrder (st : State) (w : Word) :
    cellBits (st.beginOrder w).c = fieldF w ++ fieldB w ++ (fieldN w + st.pm.getD 0) := by
  have hc : (st.beginOrder w).c = (st.loadOrder w).consumeModifier.c := rfl
  rw [hc, State.consumeModifier_c]
  cases hpm : st.pm with
  | none =>
    simp [State.loadOrder, hpm, zext21, cellBits_setWidth, append_fields]
  | some x =>
    simp [State.loadOrder, hpm, cellBits_addToN]

/-- The order a step dispatches on. -/
theorem decoded_beginOrder (st : State) (w : Word) :
    (st.beginOrder w).decoded = ofFields (fieldF w) (fieldB w) (fieldN w + st.pm.getD 0) := by
  rw [State.decoded, cellBits_beginOrder, decode_append]

@[simp] theorem State.beginOrder_pm (st : State) (w : Word) : (st.beginOrder w).pm = none :=
  (st.loadOrder w).consumeModifier_pm

end Sys2Proof.Machine

/-! ## The statements on encoding -/

section
open Sys2Proof Sys2Proof.Machine

/-- Settles O1: the word is the three fields packed, each field is within its width, and decoder and written form
both give the order of those fields. -/
theorem encodePacksTheTriple : Obligations.EncodePacksTheTriple := by
  refine ⟨fun i => ?_, ofOrder_toOrder (.stb 3 10), toNat_encode (.stb 3 10)⟩
  have hf : (fcode i).toNat ≤ 63 := Nat.le_of_lt_succ (fcode i).isLt
  have hb : (bField i).toNat ≤ 7 := Nat.le_of_lt_succ (bField i).isLt
  have hn : (nField i).toNat ≤ 2047 := Nat.le_of_lt_succ (nField i).isLt
  exact ⟨toNat_encode i, hf, hb, hn, decode_encode i, ofOrder_toOrder i⟩

/-- Settles O2: encoding the decoded order packs the fields the decoder took apart. -/
theorem decodeIsTotalAndInjective : Obligations.DecodeIsTotalAndInjective :=
  ⟨fun w => ⟨encode_decode w, decodeNat_toNat w⟩, fun _ => decodeNat_of_le⟩

/-- Settles O5: the order dispatched on has the f and the b field of the word and the sum in its n field. -/
theorem modifierMovesOnlyN : Obligations.ModifierMovesOnlyN := by
  intro st w
  rw [decoded_beginOrder, fcode_ofFields, bField_ofFields, nField_ofFields]
  exact ⟨rfl, rfl, BitVec.toNat_add _ _, st.beginOrder_pm w⟩

/-- Settles O3: each word is the three fields named here, packed. -/
theorem writtenOutWordsDecode : Obligations.WrittenOutWordsDecode :=
  ⟨decode_append 1#6 3#3 10#11, decode_append 5#6 1#3 3#11, decode_append 3#6 2#3 9#11, decode_append 14#6 1#3 2#11,
    decode_append 0#6 3#3 0#11, decode_append 26#6 1#3 100#11, decode_append 28#6 0#3 41#11,
    decode_append 33#6 0#3 12#11, decode_append 37#6 0#3 1024#11, decode_append 43#6 1#3 15#11,
    decode_append 56#6 0#3 20#11, decode_append 59#6 7#3 2047#11, decode_append 35#6 0#3 0#11,
    decode_append 63#6 7#3 2047#11⟩

/-- Settles O4: the word decodes to the table's entry at the code, which for each of the 64 codes is the order
named. -/
theorem functionCodeSelectsTheOrder : Obligations.FunctionCodeSelectsTheOrder := by
  intro b n
  and_intros <;> exact decode_append _ b n

end

/-! ## The step cycle

A step is one of three: the halted gate's, the counter check's, or an order's with the events of the step's end. Each
has an equation here, with what opens its gate said in the spec's terms. What an order leaves of STOP, of the events
and of the output event is said once of every order by `exec_end`. -/

namespace Sys2Proof.Machine

section
variable {st u : State} {w : Word}

/-! ### The gate, the counter check and the fetch -/

/-- The fatal stops are the two that only reset leaves (R111). -/
theorem halted_iff : st.halted = true ↔ st.stop = some .absolute ∨ st.stop = some .irrecoverableOverflow := by
  unfold State.halted
  split
  next h => simp [h]
  next r h => cases r <;> simp [h, StopReason.fatal]

theorem halted_eq_false (habs : st.stop ≠ some .absolute) (hirr : st.stop ≠ some .irrecoverableOverflow) :
    st.halted = false :=
  Bool.eq_false_iff.mpr fun h => (halted_iff.mp h).elim habs hirr

/-- No word is fetched when the counter is at or beyond the length of the selected store (R112). -/
theorem fetchWord_eq_none_iff :
    st.fetchWord = none ↔
      st.sel = .boot ∧ st.boot.length ≤ st.ctr.toNat ∨ st.sel = .main ∧ 512 ≤ st.ctr.toNat := by
  cases hsel : st.sel <;> simp [State.fetchWord, hsel, validAddr_iff]

/-- The word fetched is the one the counter names in the selected store (R67). -/
theorem fetchWord_eq_some_iff :
    st.fetchWord = some w ↔
      st.sel = .boot ∧ st.boot[st.ctr.toNat]? = some w ∨
        st.sel = .main ∧ st.ctr.toNat < 512 ∧ st.main.read st.ctr.toNat = w := by
  cases hsel : st.sel <;> simp [State.fetchWord, hsel, validAddr_iff, State.cell]

/-! ### The three kinds of step -/

theorem step_of_halted (h : st.halted = true) : step st = .next st :=
  if_pos h

theorem step_of_fetchWord_none (h : st.halted = false) (hw : st.fetchWord = none) :
    step st = .next (st.raiseStop .absolute) := by
  simp [step, h, hw]

theorem step_of_exec (h : st.halted = false) (hw : st.fetchWord = some w)
    (hu : exec (st.beginOrder w).decoded (st.beginOrder w) = .next u) : step st = .next u.endOrder := by
  simp [step, h, hw, hu, finishOrder]

/-- Nothing but reset leaves a fatal stop: each further step is the halted gate's (R111, D24). -/
theorem run_of_halted (h : st.halted = true) (k : Nat) : core.run k st = .next st := by
  induction k with
  | zero => rfl
  | succ k ih =>
    have hstep : core.step st = .next st := step_of_halted h
    simp only [Host.Core.run, hstep, ih]

/-- The rule of every order is a next state (R301). -/
theorem exec_total (i : Instr) (st : State) : ∃ t, exec i st = .next t := by
  cases i with
  | _ => exact ⟨_, rfl⟩

theorem step_total (st : State) : ∃ t, step st = .next t := by
  cases hh : st.halted with
  | true => exact ⟨_, step_of_halted hh⟩
  | false =>
    cases hw : st.fetchWord with
    | none => exact ⟨_, step_of_fetchWord_none hh hw⟩
    | some w =>
      obtain ⟨u, hu⟩ := exec_total (st.beginOrder w).decoded (st.beginOrder w)
      exact ⟨_, step_of_exec hh hw hu⟩

/-! ### The state an order starts from -/

/-- Before dispatch only S, C, CTR, PM and the status change (R113 to R115). -/
theorem State.beginOrder_eq (st : State) (w : Word) :
    st.beginOrder w =
      { st with
        s := sext21 w, c := (st.beginOrder w).c, ctr := st.ctr + 1, pm := none
        saved := ⟨st.stop, st.ovf, st.unf⟩, stop := none, ovf := false, unf := false, hook := none } := by
  cases hpm : st.pm <;>
    simp [State.beginOrder, State.loadOrder, State.consumeModifier, State.saveStatus, hpm]

@[simp] theorem State.beginOrder_stop (st : State) (w : Word) : (st.beginOrder w).stop = none := rfl

@[simp] theorem State.beginOrder_hook (st : State) (w : Word) : (st.beginOrder w).hook = none := rfl

@[simp] theorem State.beginOrder_saved (st : State) (w : Word) :
    (st.beginOrder w).saved = ⟨st.stop, st.ovf, st.unf⟩ := by
  simp [State.beginOrder]

@[simp] theorem State.beginOrder_events (st : State) (w : Word) : (st.beginOrder w).events = st.events := by
  simp [State.beginOrder]

/-- The word in C with the modifier added: C[20] is 0, the f and the b field are the word's (R98, R114). -/
theorem addToN_zext21 (w : Word) (x : Addr) :
    addToN (zext21 w) x = 0#1 ++ fieldF w ++ fieldB w ++ (fieldN w + x) := by
  have hhigh : (zext21 w).extractLsb' 11 10 = 0#1 ++ fieldF w ++ fieldB w := by
    apply BitVec.eq_of_getLsbD_eq
    intro k hk
    simp only [zext21, fieldF, fieldB, BitVec.getLsbD_append, BitVec.getLsbD_extractLsb', BitVec.getLsbD_setWidth]
    grind
  have hlow : (zext21 w).extractLsb' 0 11 = fieldN w := BitVec.extractLsb'_setWidth_of_le (by decide)
  rw [addToN, hhigh, hlow]

theorem beginOrder_c_of_pm_none (h : st.pm = none) : (st.beginOrder w).c = zext21 w := by
  simp [State.beginOrder, State.consumeModifier, h]

theorem beginOrder_c_of_pm_some {x : Addr} (h : st.pm = some x) :
    (st.beginOrder w).c = 0#1 ++ fieldF w ++ fieldB w ++ (fieldN w + x) := by
  simp [State.beginOrder, State.consumeModifier, h, addToN_zext21]

/-- The fetch and the modifier leave the B-registers as they are (R113, R116). -/
theorem getB_beginOrder (st : State) (w : Word) (j : BIndex) : (st.beginOrder w).getB j = st.getB j :=
  State.getB_congr _ _ (by rw [State.beginOrder_eq]) j

/-- The effective address as a number (R116). -/
theorem toNat_ea (st : State) (b : BIndex) (n : Addr) :
    (st.ea b n).toNat = if b = 0 then n.toNat else ((st.getB b).toNat + n.toNat) % 2048 := by
  unfold State.ea
  split
  · rfl
  · exact BitVec.toNat_add _ _

end

/-! ### How an order ends -/

/-- What an order does before its last act: the registers and the stores may change, and what the end of the step
looks at stays. By default a part is the same by definition. -/
structure Quiet (st t : State) : Prop where
  stop : t.stop = st.stop := by rfl
  saved : t.saved = st.saved := by rfl
  events : t.events = st.events := by rfl
  hook : t.hook = st.hook := by rfl

/-- The events an order may hand over for emission after PostOrder (R173, R181, R182). -/
inductive OutputEvent : Event → Prop where
  | output (v : Int) : OutputEvent (.output v)
  | connect (ch : Fin 2) (v : Int) : OutputEvent (.connect ch v)
  | disconnect (ch : Fin 2) : OutputEvent (.disconnect ch)

/-- An order's last act is one stop (R15), the restore of the status (R119), the handing over of one output event
(R120), or none of them. -/
inductive OrderEnd (st t : State) : Prop where
  | quiet (ht : Quiet st t)
  | stops (u : State) (r : StopReason) (hu : Quiet st u) (ht : t = u.raiseStop r)
  | restores (u : State) (hu : Quiet st u) (ht : t = u.restoreStatus)
  | handsOver (u : State) (e : Event) (he : OutputEvent e) (hu : Quiet st u) (ht : t = u.handOver e)

section
variable {st t u : State}

theorem Quiet.trans (h : Quiet st u) (h' : Quiet u t) : Quiet st t where
  stop := h'.stop.trans h.stop
  saved := h'.saved.trans h.saved
  events := h'.events.trans h.events
  hook := h'.hook.trans h.hook

theorem Quiet.then_end (h : Quiet st u) (h' : OrderEnd u t) : OrderEnd st t := by
  cases h' with
  | quiet ht => exact .quiet (h.trans ht)
  | stops v r hv ht => exact .stops v r (h.trans hv) ht
  | restores v hv ht => exact .restores v (h.trans hv) ht
  | handsOver v e he hv ht => exact .handsOver v e he (h.trans hv) ht

theorem raiseStop_end (r : StopReason) : OrderEnd st (st.raiseStop r) :=
  .stops st r {} rfl

theorem signal_end (o : Option Overflow) : OrderEnd st (st.signal o) := by
  match o with
  | none => exact .quiet {}
  | some .positive => exact .stops { st with ovf := true } _ {} rfl
  | some .negative => exact .stops { st with unf := true } _ {} rfl

theorem checkS_end : OrderEnd st st.checkS := by
  rw [State.checkS_eq]
  split
  · exact raiseStop_end _
  · exact .quiet {}

theorem memRead_end {a : Addr} {rest : Word → State → State} (hrest : ∀ w u, OrderEnd u (rest w u)) :
    OrderEnd st (memRead a rest st) := by
  obtain ⟨_, h⟩ | ⟨_, h⟩ := memRead_cases a rest st <;> rw [h]
  · exact Quiet.then_end {} (hrest _ _)
  · exact raiseStop_end _

theorem memWrite_end {a : Addr} {x : OdWord} {rest : State → State} (hrest : ∀ u, OrderEnd u (rest u)) :
    OrderEnd st (memWrite a x rest st) := by
  obtain ⟨_, h⟩ | ⟨_, h⟩ := memWrite_cases a x rest st <;> rw [h]
  · exact Quiet.then_end {} (hrest _)
  · exact raiseStop_end _

theorem singleAddM_end {x sign : Int} : OrderEnd st (singleAddM x sign st) :=
  Quiet.then_end {} (signal_end _)

theorem singleAddD_end {x sign : Int} : OrderEnd st (singleAddD x sign st) :=
  Quiet.then_end {} (signal_end _)

theorem shiftAsl_end (k : Nat) : OrderEnd st (shiftAsl k st) :=
  Quiet.then_end {} (signal_end _)

theorem shiftBySigned_end {own opposite : Nat → State → State} {n : Addr} (hown : ∀ k, OrderEnd st (own k st))
    (hopp : ∀ k, OrderEnd st (opposite k st)) : OrderEnd st (shiftBySigned own opposite n st) := by
  unfold shiftBySigned
  split_ifs
  · exact hown _
  · exact hopp _
  · exact .quiet {}

/-- Every order's last act, one case for each way in which orders use the shared operations. -/
theorem exec_end {i : Instr} (h : exec i st = .next t) : OrderEnd st t := by
  cases i with
  | stop b n =>
    cases h
    change OrderEnd st (if _ then _ else _)
    split_ifs
    · exact raiseStop_end _
    · exact raiseStop_end _
    · exact raiseStop_end _
    · exact .restores st {} rfl
  | undef11 b n | undef18 b n | undef19 b n | undef30 b n | undef35 b n | undef50 b n | undef57 b n | undef58 b n
  | undef61 b n | undef62 b n | undef63 b n =>
    cases h
    exact raiseStop_end _
  | lib b n | aib b n | sib b n | jbp b n | jbn b n | dj1 b n | dj2 b n | jan b n | jap b n | jaz b n | juf b n
  | jof b n | jmp b n | jsw b n | lid b n | xmd b n =>
    cases h
    exact .quiet {}
  | ldb b n | adb b n | sbb b n | anb b n | lda b n | lmc b n | lmn b n | ldm b n | xrm b n | anm b n | ldd b n
  | ldv b n =>
    cases h
    exact memRead_end fun _ _ => .quiet {}
  | stb b n | stl b n =>
    cases h
    exact memWrite_end fun _ => .quiet {}
  | xcb b n =>
    cases h
    exact memRead_end fun _ _ => memWrite_end fun _ => .quiet {}
  | rdt b n =>
    cases h
    change OrderEnd st (if _ then _ else _)
    split_ifs
    · exact Quiet.then_end (u := st.tapeAdvance.setB b (codeToB st.tapeCode)) {} (memWrite_end fun _ => .quiet {})
    · exact raiseStop_end _
  | mda b n =>
    cases h
    exact .restores { st with pm := some (st.ea b n) } {} rfl
  | mds b n =>
    cases h
    exact memRead_end fun w u => .restores { u with pm := some (addrBits w) } {} rfl
  | out b n =>
    cases h
    exact memRead_end fun _ u => .handsOver u _ (.output _) {} rfl
  | con b n =>
    cases h
    exact memRead_end fun _ u => .handsOver u _ (.connect _ _) {} rfl
  | dis b n =>
    cases h
    exact .handsOver st _ (.disconnect _) {} rfl
  | ada b n | sba b n | mul b n =>
    cases h
    exact memRead_end fun _ _ => Quiet.then_end {} (signal_end _)
  | adm b n | sbm b n =>
    cases h
    exact memRead_end fun _ _ => singleAddM_end
  | add b n | sbd b n =>
    cases h
    exact memRead_end fun _ _ => singleAddD_end
  | asl b n =>
    cases h
    exact shiftBySigned_end shiftAsl_end fun _ => .quiet {}
  | asr b n =>
    cases h
    exact shiftBySigned_end (fun _ => .quiet {}) shiftAsl_end
  | lsl b n | lsr b n =>
    cases h
    exact shiftBySigned_end (fun _ => .quiet {}) fun _ => .quiet {}
  | asm b n | ssm b n =>
    cases h
    exact memRead_end fun _ _ => memWrite_end fun _ => checkS_end
  | xcm b n =>
    cases h
    exact memRead_end fun _ _ => memWrite_end fun _ => Quiet.then_end {} checkS_end
  | std b n =>
    cases h
    exact memWrite_end fun _ => checkS_end

end

end Sys2Proof.Machine

/-! ## The statements on the step cycle -/

section
open Sys2Proof Sys2Proof.Machine

/-- Settles O7: the run is the halted gate's at each step. -/
theorem fatalStopHoldsForever : Obligations.FatalStopHoldsForever :=
  fun _ hstop => run_of_halted (halted_iff.mpr hstop)

/-- Settles O8: the counter check's step, its stop written out. -/
theorem counterCheckStops : Obligations.CounterCheckStops :=
  fun _ habs hirr hctr => step_of_fetchWord_none (halted_eq_false habs hirr) (fetchWord_eq_none_iff.mpr hctr)

/-- Settles O9: each order's rule and each of the three kinds of step is a next state. -/
theorem everyStepAnswersNext : Obligations.EveryStepAnswersNext :=
  ⟨exec_total, step_total⟩

/-- Settles O10: an order starts with STOP none and no event handed over, and only its last act touches either. -/
theorem stepEventsInOrder : Obligations.StepEventsInOrder := by
  intro st t w hh hw h
  obtain ⟨u, hu⟩ := exec_total (st.beginOrder w).decoded (st.beginOrder w)
  rw [step_of_exec hh hw hu] at h
  cases h
  cases exec_end hu with
  | quiet hq =>
    exact ⟨[], [], by simp [hq.events, hq.hook], .inl ⟨rfl, .inl hq.stop⟩, .inl rfl, .inl rfl⟩
  | stops v r hv ht =>
    subst ht
    refine ⟨[.stopped r], [], ?_, .inr ⟨r, rfl, rfl⟩, .inl rfl, .inr rfl⟩
    simp [hv.stop, hv.events, hv.hook]
  | restores v hv ht =>
    subst ht
    refine ⟨[], [], ?_, .inl ⟨rfl, .inr ?_⟩, .inl rfl, .inl rfl⟩
    · simp [hv.events, hv.hook]
    · simp [hv.saved]
  | handsOver v e he hv ht =>
    subst ht
    refine ⟨[], [e], ?_, .inl ⟨rfl, .inl hv.stop⟩, .inr ?_, .inl rfl⟩
    · simp [hv.events]
    · cases he with
      | output v => exact .inl ⟨v, rfl⟩
      | connect ch v => exact .inr (.inl ⟨ch, v, rfl⟩)
      | disconnect ch => exact .inr (.inr ⟨ch, rfl⟩)

/-- Settles O23: the modified n field is a sum modulo 2^11, and so is the sum with B[b]. -/
theorem effectiveAddressIsBModified : Obligations.EffectiveAddressIsBModified := by
  refine ⟨toNat_ea, fun st w x hpm => ⟨getB_beginOrder st w, ?_⟩⟩
  have hn : (fieldN w + x).toNat = ((fieldN w).toNat + x.toNat) % 2048 := BitVec.toNat_add _ _
  simp only [toNat_ea, getB_beginOrder, decoded_beginOrder, hpm, Option.getD_some, bField_ofFields, nField_ofFields,
    hn, Nat.add_mod_mod, Nat.add_assoc]
  rfl

/-- Settles O6: the word the counter names is fetched, and the order is run on the state written out. -/
theorem stepRunsTheDecodedOrder : Obligations.StepRunsTheDecodedOrder := by
  intro st w habs hirr hfetch c' t u hu
  have hc : (st.beginOrder w).c = c' := by
    simp only [c']
    split
    next hpm => exact beginOrder_c_of_pm_none hpm
    next x hpm => exact beginOrder_c_of_pm_some hpm
  have ht : st.beginOrder w = t := by rw [State.beginOrder_eq, hc]; rfl
  have hdecoded : (st.beginOrder w).decoded = decode (c'.extractLsb' 0 20) := by
    rw [State.decoded, hc, cellBits, BitVec.setWidth_eq_extractLsb' (by decide)]
  refine step_of_exec (halted_eq_false habs hirr) (fetchWord_eq_some_iff.mpr hfetch) ?_
  rw [hdecoded, ht, hu]

end

/-! ## The B-register orders

What the orders of 41_b_register_orders.md answer is written with `State.setB` and `Memory.write`, once for each
operation they share and for each order of its own kind. From that the statements say what B[b] and the cell then read
as, each value as a number. -/

namespace Sys2Proof.Machine

/-! ### Values of a B-register as numbers -/

/-- A B-register takes the cell's number modulo 2^11 (R43). -/
theorem addrBits_eq_ofNat (w : Word) : addrBits w = BitVec.ofNat 11 w.toNat :=
  (BitVec.ofNat_toNat 11 w).symm

/-- Read signed or unsigned, the cell is the same modulo 2^11 (R143). -/
theorem addrBits_eq_ofInt (w : Word) : addrBits w = BitVec.ofInt 11 w.toInt :=
  (BitVec.signExtend_eq_setWidth_of_le w (by decide)).symm

theorem add_addrBits (x : Addr) (w : Word) : x + addrBits w = BitVec.ofInt 11 (x.toNat + w.toInt) := by
  rw [BitVec.ofInt_add, BitVec.ofInt_natCast, BitVec.ofNat_toNat, BitVec.setWidth_eq, addrBits_eq_ofInt]

theorem add_eq_ofNat (x y : Addr) : x + y = BitVec.ofNat 11 ((x.toNat + y.toNat) % 2048) :=
  BitVec.eq_of_toNat_eq (by simp)

/-- Subtraction in a B-register is that of the numbers, modulo 2^11. -/
theorem sub_ofNat_eq_ofInt (x : Addr) (k : Nat) :
    x - BitVec.ofNat 11 k = BitVec.ofInt 11 (x.toNat - k : Int) := by
  rw [BitVec.sub_eq_iff_eq_add, ← BitVec.ofInt_natCast 11 k, ← BitVec.ofInt_add, Int.sub_add_cancel,
    BitVec.ofInt_natCast, BitVec.ofNat_toNat, BitVec.setWidth_eq]

theorem sub_eq_ofInt (x y : Addr) : x - y = BitVec.ofInt 11 (x.toNat - y.toNat : Int) := by
  rw [← sub_ofNat_eq_ofInt, BitVec.ofNat_toNat, BitVec.setWidth_eq]

theorem sub_ofNat_eq_zero_iff (x : Addr) {k : Nat} (hk : k < 2048) : x - BitVec.ofNat 11 k = 0 ↔ x.toNat = k := by
  rw [BitVec.sub_eq_iff_eq_add, zero_add, ← BitVec.toNat_inj, BitVec.toNat_ofNat, Nat.mod_eq_of_lt hk]

/-- Order 13's test of B[b] (R152). -/
theorem bne_zero_iff (x : Addr) : (x != 0) = true ↔ x.toNat ≠ 0 :=
  bne_iff_ne.trans BitVec.toNat_ne

/-- Order 12's test of B[b], which is read as unsigned (R151, D31). -/
theorem decide_pos_iff (x : Addr) : decide (0 < x.toNat) = true ↔ x.toNat ≠ 0 :=
  decide_eq_true_iff.trans Nat.pos_iff_ne_zero

/-- The bits of the bitwise and are those of the cell under those of the register (R148). -/
theorem getLsbD_and_addrBits (x : Addr) (w : Word) (j : Nat) :
    (x &&& addrBits w).getLsbD j = (x.getLsbD j && w.getLsbD j) := by
  rw [BitVec.getLsbD_and, addrBits, BitVec.getLsbD_setWidth]
  by_cases hj : j < 11
  · simp [hj]
  · simp [BitVec.getLsbD_of_ge x j (Nat.le_of_not_lt hj)]

/-- A cell keeps the whole number of a zero-extended register (R65). -/
theorem cellBits_zext {k : Nat} (x : BitVec k) : cellBits (x.setWidth 21) = BitVec.ofNat 20 x.toNat := by
  rw [cellBits_setWidth, BitVec.ofNat_toNat]

/-- The tape code is the next one's low 5 bits, 0 at the end of the tape (R155, D30). -/
theorem toNat_tapeCode (st : State) : st.tapeCode.toNat = st.tape.headD 0 % 32 :=
  BitVec.toNat_ofNat ..

section
variable {st t u : State}

/-! ### The effects that the statements name -/

theorem bWritten_setB (b : BIndex) (x : Addr) (h : u.b = st.b) : BWritten st (u.setB b x) b x := by
  intro j
  rw [State.getB_setB, State.getB_congr u st h]

theorem cellWritten_of_main {a : Nat} {w : Word} (h : t.main = st.main.write a w) : CellWritten st t a w := by
  intro x
  rw [h, Memory.read_write]

/-- A write of a zero-extended quantity at a valid address: S and the cell take its number (R65). -/
theorem memWrite_zext {k : Nat} (x : BitVec k) (rest : State → State) {a : Addr} (ha : a.toNat < 512) :
    memWrite a (x.setWidth 21) rest st =
      rest { st with s := BitVec.ofNat 21 x.toNat, main := st.main.write a.toNat (BitVec.ofNat 20 x.toNat) } := by
  rw [memWrite_valid a _ rest st ha, cellBits_zext, BitVec.ofNat_toNat 21]

/-! ### The orders -/

/-- Order 1 at a valid address (R141). -/
theorem exec_stb_valid (b : BIndex) {n : Addr} (h : n.toNat < 512) :
    exec (.stb b n) st =
      .next { st with
        s := BitVec.ofNat 21 (st.getB b).toNat
        main := st.main.write n.toNat (BitVec.ofNat 20 (st.getB b).toNat) } :=
  next_congr (memWrite_zext (st.getB b) id h)

/-- What orders 2, 3, 4 and 8 share at a valid address: B[b] takes what the order computes and S mirrors the cell
(R32, R142 to R144, R148). -/
theorem withCellToB_valid (f : Addr → Word → Addr) (b : BIndex) {n : Addr} (h : n.toNat < 512) :
    withCellToB f b n st =
      { st with s := (st.main.read n.toNat).signExtend 21 }.setB b (f (st.getB b) (st.main.read n.toNat)) :=
  memRead_valid n _ st h

/-- The same as an effect, with the value that B[b] takes given. -/
theorem withCellToB_effect {f : Addr → Word → Addr} (b : BIndex) {n x : Addr} (h : n.toNat < 512)
    (hx : f (st.getB b) (st.main.read n.toNat) = x) :
    BWritten st (withCellToB f b n st) b x ∧
      withCellToB f b n st =
        { st with s := (st.main.read n.toNat).signExtend 21, b := (withCellToB f b n st).b } := by
  rw [withCellToB_valid f b h, hx]
  exact ⟨bWritten_setB b x rfl, rfl⟩

/-- Order 9 at a valid address: the cell takes the old B[b], and B[b] the cell as it was read before (R149, D38). -/
theorem exec_xcb_valid (b : BIndex) {n : Addr} (h : n.toNat < 512) :
    exec (.xcb b n) st =
      .next ({ st with
        s := BitVec.ofNat 21 (st.getB b).toNat
        main := st.main.write n.toNat (BitVec.ofNat 20 (st.getB b).toNat) }.setB b
          (BitVec.ofNat 11 (st.main.read n.toNat).toNat)) := by
  refine next_congr ((memRead_valid n _ st h).trans ((memWrite_zext _ _ h).trans ?_))
  rw [addrBits_eq_ofNat]
  rfl

/-- Order 10 at a valid address (R150). -/
theorem exec_rdt_valid (b : BIndex) {n : Addr} (h : n.toNat < 512) :
    exec (.rdt b n) st =
      .next ({ st with
        s := BitVec.ofNat 21 st.tapeCode.toNat
        main := st.main.write n.toNat (BitVec.ofNat 20 st.tapeCode.toNat)
        tape := st.tape.tail }.setB b (BitVec.ofNat 11 st.tapeCode.toNat)) := by
  refine next_congr ((if_pos ((validAddr_iff n).mpr h)).trans ((memWrite_zext st.tapeCode id h).trans ?_))
  rw [BitVec.ofNat_toNat 11]
  rfl

theorem jumpIf_of_true {cond : Bool} (n : Addr) (h : cond = true) : st.jumpIf cond n = { st with ctr := n } := by
  rw [h]
  rfl

theorem jumpIf_of_not {cond : Bool} (n : Addr) (h : ¬cond = true) : st.jumpIf cond n = st := by
  rw [Bool.eq_false_iff.mpr h]
  rfl

/-- What orders 14 and 15 share: B[b] is written in any case, and the jump is not taken when it was `k` (R153,
R154). -/
theorem countingJump_effect {k : Nat} (b : BIndex) (n : Addr) (hk : k < 2048) :
    BWritten st (countingJump (BitVec.ofNat 11 k) b n st) b (BitVec.ofInt 11 ((st.getB b).toNat - k : Int)) ∧
      countingJump (BitVec.ofNat 11 k) b n st =
        { st with
          b := (countingJump (BitVec.ofNat 11 k) b n st).b
          ctr := if (st.getB b).toNat = k then st.ctr else n } := by
  have hctr : (if st.getB b - BitVec.ofNat 11 k != 0 then n else st.ctr) =
      if (st.getB b).toNat = k then st.ctr else n := by
    simp only [bne_iff_ne, ne_eq, sub_ofNat_eq_zero_iff _ hk, ite_not]
  refine ⟨?_, ?_⟩
  · rw [← sub_ofNat_eq_ofInt]
    exact bWritten_setB b _ rfl
  · rw [← hctr]
    rfl

end

end Sys2Proof.Machine

/-! ## The statements on the B-register orders -/

section
open Sys2Proof Sys2Proof.Machine

/-- Settles O15: the tape, OPTSTOP and BOOT are overridden. -/
theorem inputsReachOnlyTheirOrders : Obligations.InputsReachOnlyTheirOrders := by
  intro i st t h
  refine ⟨fun x hi => ?_, fun y hi => ?_, fun z => ?_⟩
  · exact exec_apply { tape := some x } h (fun _ => rfl) (fun _ => rfl) (fun _ => rfl) fun h10 => absurd h10 hi
  · exact exec_apply { optstop := some y } h (fun _ => rfl) (fun _ => rfl) (fun h0 => absurd h0 hi) fun _ => rfl
  · exact exec_apply { boot := some z } h (fun _ => rfl) (fun _ => rfl) (fun _ => rfl) fun _ => rfl

/-- Settles O24: the write of B[b], or the Absolute stop. -/
theorem stbStoresB : Obligations.StbStoresB := by
  intro b n st
  refine ⟨rfl, fun h => ?_, fun h => ?_⟩
  · exact ⟨_, exec_stb_valid b h, cellWritten_of_main rfl, rfl⟩
  · exact ⟨_, exec_invalid_address rfl h, rfl⟩

/-- Settles O25: the shared effect of the orders that compute in B[b], or the Absolute stop. -/
theorem ldbAndSbbComputeInB : Obligations.LdbAndSbbComputeInB := by
  intro b n st w
  refine ⟨rfl, rfl, fun h => ⟨?_, ?_⟩, fun h => ⟨?_, ?_⟩⟩
  · exact ⟨_, rfl, withCellToB_effect b h (addrBits_eq_ofNat w)⟩
  · have hx : st.getB b - addrBits w = BitVec.ofInt 11 ((st.getB b).toNat - w.toNat : Int) := by
      rw [addrBits_eq_ofNat, sub_ofNat_eq_ofInt]
    exact ⟨_, rfl, withCellToB_effect b h hx⟩
  · exact ⟨_, exec_invalid_address rfl h, rfl⟩
  · exact ⟨_, exec_invalid_address rfl h, rfl⟩

/-- Settles O26: the shared effect again, the bitwise and read bit by bit. -/
theorem adbAndAnbComputeInB : Obligations.AdbAndAnbComputeInB := by
  intro b n st w h
  refine ⟨⟨_, rfl, withCellToB_effect b h (add_addrBits (st.getB b) w)⟩, ?_⟩
  obtain ⟨hb, ht⟩ := withCellToB_effect (st := st) (f := fun x w => x &&& addrBits w) b h rfl
  refine ⟨_, rfl, fun j => ?_, fun j hj => ?_, ht⟩
  · rw [hb b, if_pos rfl]
    exact getLsbD_and_addrBits (st.getB b) w j
  · rw [hb j, if_neg hj]

/-- Settles O27: each order is one write of B[b]. -/
theorem immediateOrdersWriteB : Obligations.ImmediateOrdersWriteB := by
  intro b n st
  refine ⟨rfl, rfl, rfl, ⟨_, rfl, bWritten_setB b n rfl, rfl⟩, ⟨_, rfl, ?_, rfl⟩, ⟨_, rfl, ?_, rfl⟩⟩
  · rw [← add_eq_ofNat]
    exact bWritten_setB b _ rfl
  · rw [← sub_eq_ofInt]
    exact bWritten_setB b _ rfl

/-- Settles O28: the write of the cell and the write of B[b]. -/
theorem xcbExchangesCellAndB : Obligations.XcbExchangesCellAndB := by
  intro b n st h
  exact ⟨_, exec_xcb_valid b h, cellWritten_of_main rfl, bWritten_setB b _ rfl, rfl⟩

/-- Settles O29: the code is the one the tape gives, in both cases of the tape. -/
theorem rdtReadsOneCode : Obligations.RdtReadsOneCode := by
  intro b n st code hcode
  have hc : st.tapeCode.toNat = code := by
    rw [toNat_tapeCode, hcode]
    cases st.tape <;> rfl
  refine ⟨fun h => ?_, fun h => exec_invalid_address rfl h⟩
  rw [← hc]
  exact ⟨_, exec_rdt_valid b h, cellWritten_of_main rfl, bWritten_setB b _ rfl, rfl⟩

/-- Settles O31: the counting jump by 1 and by 2. -/
theorem countingJumpsDecrement : Obligations.CountingJumpsDecrement := by
  intro b n st
  exact ⟨rfl, rfl, ⟨_, rfl, countingJump_effect (k := 1) b n (by decide)⟩,
    ⟨_, rfl, countingJump_effect (k := 2) b n (by decide)⟩⟩

/-- Settles O30: each order's test is that B[b], as an unsigned number, is not 0. -/
theorem bTestJumps : Obligations.BTestJumps := by
  intro b n st
  refine ⟨fun h => ⟨?_, ?_⟩, fun h => ⟨?_, ?_⟩⟩
  · exact next_congr (jumpIf_of_true n ((bne_zero_iff _).mpr h))
  · exact next_congr (jumpIf_of_true n ((decide_pos_iff _).mpr h))
  · exact next_congr (jumpIf_of_not n fun hc => (bne_zero_iff _).mp hc h)
  · exact next_congr (jumpIf_of_not n fun hc => (decide_pos_iff _).mp hc h)

end

/-! ## The control orders

The jumps of 42_control_orders.md share one shape, a jump on a test, so the content is what each test says. The three
tests of the accumulator look at its digits, and are shown here to be the comparisons of its value with zero. -/

namespace Sys2Proof.Machine

section
variable {st : State}

/-! ### The tests of the accumulator as comparisons of its value -/

/-- The value of the accumulator is M's value in units of 2^19 and L (R25, R30). -/
theorem accValue_eq (st : State) : accValue st = val st.m * 2 ^ 19 + st.l.toNat := by
  rw [accValue, val, cellBits, BitVec.setWidth_eq_extractLsb' (by decide)]

theorem low_range (x : Low) : (x.toNat : Int) < 2 ^ 19 :=
  Int.ofNat_lt.mpr x.isLt

theorem low_eq_zero_iff (x : Low) : x = 0 ↔ (x.toNat : Int) = 0 :=
  BitVec.toNat_inj.symm.trans Int.natCast_eq_zero.symm

/-- The sign digit is the sign of the register's value: the overflow digit is no part of either (R30, D32). -/
theorem signDigit_iff (r : OdWord) : signDigit r = true ↔ val r < 0 := by
  have hmsb : (cellBits r).msb = signDigit r := BitVec.msb_setWidth'' r
  rw [← hmsb, ← BitVec.slt_zero_iff_msb_cond, BitVec.slt_iff_toInt_lt, BitVec.toInt_zero, val]

theorem cellBits_eq_zero_iff (r : OdWord) : cellBits r = 0 ↔ val r = 0 := by
  rw [val, ← BitVec.toInt_inj]
  rfl

/-- L counts for less than one unit of M, so it cannot make a negative value of M's reach zero (R174). -/
theorem accNegative_iff (st : State) : st.accNegative = true ↔ accValue st < 0 := by
  have hl := low_range st.l
  rw [State.accNegative, signDigit_iff, accValue_eq]
  omega

/-- The two halves cannot cancel, for the same reason (R176). -/
theorem accNonZero_iff (st : State) : st.accNonZero = true ↔ accValue st ≠ 0 := by
  have hl := low_range st.l
  rw [State.accNonZero, Bool.or_eq_true, bne_iff_ne, bne_iff_ne, Ne, Ne, cellBits_eq_zero_iff, low_eq_zero_iff,
    accValue_eq]
  omega

/-- Positive is neither negative nor zero (R175). -/
theorem accPositive_iff (st : State) : st.accPositive = true ↔ 0 < accValue st := by
  have hneg : signDigit st.m = true ↔ accValue st < 0 := accNegative_iff st
  rw [State.accPositive, Bool.and_eq_true, Bool.not_eq_true', ← Bool.not_eq_true, hneg, accNonZero_iff]
  omega

/-! ### The jump on a test and the channel -/

/-- A jump whose test is said as a proposition. -/
theorem jumpIf_of_iff {cond : Bool} {p : Prop} [Decidable p] (a : Addr) (h : cond = true ↔ p) :
    st.jumpIf cond a = { st with ctr := if p then a else st.ctr } := by
  simp only [State.jumpIf, h]

/-- The channel is the parity of the address (R181, D18). -/
theorem channelOf_eq {a : Addr} {ch : Fin 2} (h : ch.val = a.toNat % 2) : channelOf a = ch :=
  Fin.ext h.symm

end

end Sys2Proof.Machine

/-! ## The statements on the control orders -/

section
open Sys2Proof Sys2Proof.Machine

/-- Settles O35: each order's test is the comparison of the accumulator's value. -/
theorem accumulatorJumpsTestTheValue : Obligations.AccumulatorJumpsTestTheValue := by
  intro b n st
  refine ⟨?_, ?_, ?_⟩
  · exact next_congr (jumpIf_of_iff _ (accNegative_iff st))
  · exact next_congr (jumpIf_of_iff _ (accPositive_iff st))
  · exact next_congr (jumpIf_of_iff _ (accNonZero_iff st))

/-- Settles O32: the branches of the stop check, in its order. -/
theorem stopCheckResolves : Obligations.StopCheckResolves := by
  intro b n st
  refine ⟨rfl, fun hb hn => ?_, fun hb hn => ?_, fun hb ho => ?_, fun hb ho => ?_⟩
  · exact next_congr (if_pos ⟨hb, hn⟩)
  · exact next_congr ((if_neg (mt And.right hn)).trans (if_pos hb))
  · exact next_congr ((if_neg (mt And.left hb)).trans ((if_neg hb).trans (if_pos ho)))
  · exact next_congr
      ((if_neg (mt And.left hb)).trans ((if_neg hb).trans (if_neg (Bool.eq_false_iff.mp ho))))

/-- Settles O33: order 17 is the read of the cell, of which PM takes the number modulo 2^11. -/
theorem modifierOrdersSetPM : Obligations.ModifierOrdersSetPM := by
  intro b n st
  refine ⟨rfl, fun h => ?_⟩
  rw [← addrBits_eq_ofNat]
  exact next_congr (memRead_valid _ _ st h)

/-- Settles O34: orders 20 and 28 are the read of the cell, and the channel is the parity of EA. -/
theorem outputOrdersHandOverEvents : Obligations.OutputOrdersHandOverEvents := by
  intro b n st w
  refine ⟨fun h => ⟨?_, fun ch hch => ?_⟩, fun ch hch => ?_⟩
  · exact next_congr (memRead_valid _ _ st h)
  · rw [← channelOf_eq hch]
    exact next_congr (memRead_valid _ _ st h)
  · rw [← channelOf_eq hch]
    rfl

/-- Settles O36: the test of each jump is the saved flag itself. -/
theorem flagJumpsReadTheSavedFlags : Obligations.FlagJumpsReadTheSavedFlags := by
  intro b n st
  refine ⟨fun h => ?_, fun h => ?_, fun h => ?_, fun h => ?_⟩
  · exact next_congr (jumpIf_of_true _ h)
  · exact next_congr (jumpIf_of_not _ (Bool.eq_false_iff.mp h))
  · exact next_congr (jumpIf_of_true _ h)
  · exact next_congr (jumpIf_of_not _ (Bool.eq_false_iff.mp h))

/-- Settles O37: order 27 exchanges the two values of SEL. -/
theorem unconditionalJumps : Obligations.UnconditionalJumps := by
  intro b n st
  have hjsw : exec (.jsw b n) st = .next { st with ctr := st.ea b n, sel := toggleSel st.sel } := rfl
  refine ⟨rfl, rfl, rfl, fun h => ?_, fun h => ?_⟩
  · rw [hjsw, h, toggleSel]
  · rw [hjsw, h, toggleSel]

/-- Settles O38: the rule of every undefined code is the one Absolute stop of `undefinedCode`. -/
theorem undefinedCodesStop : Obligations.UndefinedCodesStop := by
  intro b n st t ht
  have hstop : undefinedCode st = .next t := next_congr ht.symm
  exact ⟨hstop, hstop, hstop, hstop, hstop, hstop, hstop, hstop, hstop, hstop, hstop⟩

end

/-! ## The double-length accumulator orders

The rules of 44_accumulator_double_length.md compute the halves of the accumulator apart, with a carry or a borrow
between them. As numbers the halves are joined by `ofInt_append`: M counts in units of 2^19, and it may be given by any
integer of the right residue. So the carry that L loses is the carry that M gains, and each order is one 40-bit
operation (R205). -/

namespace Sys2Proof.Machine

/-! ### Halves and wholes as numbers -/

/-- The pair of a high half given modulo 2^21 and a low half is the 40-bit pattern of their joint value (R13, R25). -/
theorem ofInt_append (x : Int) (l : Low) :
    (BitVec.ofInt 21 x ++ l : Acc) = BitVec.ofInt 40 (x * 2 ^ 19 + l.toNat) := by
  apply BitVec.eq_of_toNat_eq
  have hl := l.isLt
  rw [BitVec.toNat_append, ← Nat.shiftLeft_add_eq_or_of_lt hl, Nat.shiftLeft_eq, BitVec.toNat_ofInt,
    BitVec.toNat_ofInt]
  omega

/-- M itself is one of the integers that give it. -/
theorem odWord_eq_ofInt (m : OdWord) : m = BitVec.ofInt 21 m.toNat := by
  rw [BitVec.ofInt_natCast, BitVec.ofNat_toNat, BitVec.setWidth_eq]

theorem append_eq_ofInt (m : OdWord) (l : Low) :
    (m ++ l : Acc) = BitVec.ofInt 40 (m.toNat * 2 ^ 19 + l.toNat) := by
  rw [← ofInt_append, ← odWord_eq_ofInt]

theorem ofInt_sub (k : Nat) (x y : Int) : BitVec.ofInt k (x - y) = BitVec.ofInt k x - BitVec.ofInt k y := by
  rw [eq_comm, BitVec.sub_eq_iff_eq_add, ← BitVec.ofInt_add, Int.sub_add_cancel]

theorem accHigh_append (m : OdWord) (l : Low) : accHigh (m ++ l) = m :=
  acc_high m l

/-- The sign digit of M is bit 38 of the accumulator (R25, R30). -/
theorem signDigit_accHigh (x : Acc) : signDigit (accHigh x) = x.getLsbD 38 := by
  rw [signDigit, accHigh, BitVec.getLsbD_extractLsb']
  rfl

/-! ### The operand's two parts -/

/-- `SIGNBIT_WEIGHT * s[19]`, what the operand brings to M (R203, R204). -/
def signTerm (p : SignbitWeight) (w : Word) : Int :=
  match p with
  | .plusOne => (w.getLsbD 19).toNat
  | .minusOne => -(w.getLsbD 19).toNat

theorem toNat_getLsbD_19 (w : Word) : (w.getLsbD 19).toNat = w.toNat / 2 ^ 19 := by
  have hw := w.isLt
  rw [BitVec.getLsbD, Nat.toNat_testBit]
  omega

theorem toNat_lowPart (w : Word) : (lowPart w).toNat = w.toNat % 2 ^ 19 := by
  rw [lowPart, BitVec.extractLsb'_toNat, Nat.shiftRight_zero]

theorem lowPart_eq_ofNat (w : Word) : lowPart w = BitVec.ofNat 19 w.toNat :=
  BitVec.eq_of_toNat_eq (by rw [toNat_lowPart, BitVec.toNat_ofNat])

/-- The number order 33 or 34 takes the operand for: the sign digit at its weight and the low part (R205). -/
def operandValue (p : SignbitWeight) (w : Word) : Int := signTerm p w * 2 ^ 19 + (lowPart w).toNat

/-- Under weight +1 the operand is the unsigned word (R203 (a)). -/
theorem operandValue_plusOne (w : Word) : operandValue .plusOne w = w.toNat := by
  rw [operandValue, signTerm, toNat_getLsbD_19, toNat_lowPart]
  omega

/-- Under weight -1 the operand is the signed word (R203 (a)). -/
theorem operandValue_minusOne (w : Word) : operandValue .minusOne w = w.toInt := by
  have hw := w.isLt
  rw [operandValue, signTerm, toNat_getLsbD_19, toNat_lowPart, BitVec.toInt_eq_toNat_cond]
  split <;> omega

theorem ofInt_operandValue_plusOne (w : Word) : BitVec.ofInt 40 (operandValue .plusOne w) = w.setWidth 40 := by
  rw [operandValue_plusOne, BitVec.ofInt_natCast, BitVec.ofNat_toNat]

theorem ofInt_operandValue_minusOne (w : Word) : BitVec.ofInt 40 (operandValue .minusOne w) = w.signExtend 40 := by
  rw [operandValue_minusOne, BitVec.signExtend]

/-! ### The split add and subtract -/

theorem bit21_eq_ofInt (x : Bool) : bit21 x = BitVec.ofInt 21 x.toNat := by
  cases x <;> rfl

/-- What L loses to the carry (R203). -/
theorem addLow_add_carry (l : Low) (w : Word) :
    (addLow l w).toNat + (addCarry l w).toNat * 2 ^ 19 = l.toNat + (lowPart w).toNat := by
  have hl := l.isLt
  have hw := (lowPart w).isLt
  have hsum : (lowSum l w).toNat = l.toNat + (lowPart w).toNat := by
    rw [lowSum, BitVec.toNat_add, BitVec.toNat_setWidth, BitVec.toNat_setWidth]
    omega
  rw [addLow, addCarry, toNat_getLsbD_19, BitVec.toNat_setWidth, hsum]
  omega

/-- What the borrow brings to L (R204). -/
theorem subLow_add_operand (l : Low) (w : Word) :
    (subLow l w).toNat + (lowPart w).toNat = l.toNat + (subBorrow l w).toNat * 2 ^ 19 := by
  have hl := l.isLt
  have hw := (lowPart w).isLt
  rw [subLow, BitVec.toNat_sub, subBorrow]
  by_cases h : l.toNat < (lowPart w).toNat
  · rw [decide_eq_true h, Bool.toNat_true]
    omega
  · rw [decide_eq_false h, Bool.toNat_false]
    omega

/-- M after order 33, the residue of an exact sum (R203). -/
theorem addHigh_eq_ofInt (p : SignbitWeight) (m : OdWord) (l : Low) (w : Word) :
    addHigh p m l w = BitVec.ofInt 21 (m.toNat + signTerm p w + (addCarry l w).toNat) := by
  rw [BitVec.ofInt_add, ← bit21_eq_ofInt]
  cases p with
  | plusOne => rw [addHigh, signTerm, BitVec.ofInt_add, ← odWord_eq_ofInt, ← bit21_eq_ofInt]
  | minusOne => rw [addHigh, signTerm, ← Int.sub_eq_add_neg, ofInt_sub, ← odWord_eq_ofInt, ← bit21_eq_ofInt]

/-- M after order 34, the residue of an exact difference (R204). -/
theorem subHigh_eq_ofInt (p : SignbitWeight) (m : OdWord) (l : Low) (w : Word) :
    subHigh p m l w = BitVec.ofInt 21 (m.toNat - signTerm p w - (subBorrow l w).toNat) := by
  rw [ofInt_sub, ← bit21_eq_ofInt]
  cases p with
  | plusOne => rw [subHigh, signTerm, ofInt_sub, ← odWord_eq_ofInt, ← bit21_eq_ofInt]
  | minusOne => rw [subHigh, signTerm, Int.sub_neg, BitVec.ofInt_add, ← odWord_eq_ofInt, ← bit21_eq_ofInt]

/-- Order 33 is one 40-bit addition: the carry cancels between the halves (R205). -/
theorem addHigh_append_addLow (p : SignbitWeight) (m : OdWord) (l : Low) (w : Word) :
    (addHigh p m l w ++ addLow l w : Acc) = (m ++ l : Acc) + BitVec.ofInt 40 (operandValue p w) := by
  have hlow := addLow_add_carry l w
  rw [addHigh_eq_ofInt, ofInt_append, append_eq_ofInt, ← BitVec.ofInt_add, operandValue]
  congr 1
  omega

/-- Order 34 is one 40-bit subtraction: the borrow cancels between the halves (R205). -/
theorem subHigh_append_subLow (p : SignbitWeight) (m : OdWord) (l : Low) (w : Word) :
    (subHigh p m l w ++ subLow l w : Acc) = (m ++ l : Acc) - BitVec.ofInt 40 (operandValue p w) := by
  have hlow := subLow_add_operand l w
  rw [subHigh_eq_ofInt, ofInt_append, append_eq_ofInt, ← ofInt_sub, operandValue]
  congr 1
  omega

/-- What order 32 puts into the accumulator is the word, sign-extended: -1 in M counts the sign digit at its negative
weight (R202). -/
theorem fill_append_lowPart (w : Word) :
    ((if w.getLsbD 19 then BitVec.allOnes 21 else 0) ++ lowPart w : Acc) = w.signExtend 40 := by
  have hfill : (if w.getLsbD 19 then BitVec.allOnes 21 else 0) = BitVec.ofInt 21 (signTerm .minusOne w) := by
    rw [signTerm]
    cases w.getLsbD 19 <;> rfl
  rw [hfill, ofInt_append, ← ofInt_operandValue_minusOne, operandValue]

/-- 21 copies of one bit are in normal form (R32, R202). -/
theorem fill_normal (x : Bool) : NormalForm (if x then BitVec.allOnes 21 else 0) := by
  rw [NormalForm]
  cases x <;> simp

/-! ### Sums and differences of the whole accumulator as numbers -/

theorem add_setWidth_eq_ofNat (x : Acc) (w : Word) : x + w.setWidth 40 = BitVec.ofNat 40 (x.toNat + w.toNat) := by
  rw [BitVec.ofNat_add, BitVec.ofNat_toNat, BitVec.ofNat_toNat, BitVec.setWidth_eq]

theorem sub_setWidth_eq_ofInt (x : Acc) (w : Word) :
    x - w.setWidth 40 = BitVec.ofInt 40 (x.toNat - w.toNat : Int) := by
  rw [ofInt_sub, BitVec.ofInt_natCast, BitVec.ofInt_natCast, BitVec.ofNat_toNat, BitVec.ofNat_toNat,
    BitVec.setWidth_eq]

section
variable {st : State}

/-! ### The accumulator of a state -/

@[simp] theorem State.acc_signal (st : State) (o : Option Overflow) : (st.signal o).acc = st.acc := by
  rw [State.acc, State.signal_m, State.signal_l, State.acc]

/-- M and L are determined by the accumulator. -/
theorem halves_of_acc_eq {u : State} (h : u.acc = st.acc) : u.m = st.m ∧ u.l = st.l := by
  have hm : accHigh u.acc = accHigh st.acc := congrArg accHigh h
  have hl : accLow u.acc = accLow st.acc := congrArg accLow h
  exact ⟨(acc_high _ _).symm.trans (hm.trans (acc_high _ _)), (acc_low _ _).symm.trans (hl.trans (acc_low _ _))⟩

/-- The effective address looks at the B-registers alone (R116). -/
theorem State.ea_congr {u : State} (h : u.b = st.b) (b : BIndex) (n : Addr) : u.ea b n = st.ea b n := by
  rw [State.ea, State.ea, State.getB_congr u st h]

/-- The accumulator became `x`, and B, D, V and MAIN are as before: what orders 33 and 34 do but for S and the flag. -/
structure AccBecomes (st t : State) (x : Acc) : Prop where
  acc : t.acc = x
  b : t.b = st.b
  d : t.d = st.d
  v : t.v = st.v
  main : t.main = st.main

/-- A flag and its stop are beside the accumulator, as S is. -/
theorem accBecomes_signal {s : OdWord} {x : Acc} {o : Option Overflow} :
    AccBecomes st (({ st with s := s }.setAcc x).signal o) x := by
  constructor <;> simp

/-- The flag of order 33 as a choice of states. -/
theorem signal_addOverflow (before after : OdWord) :
    st.signal (addOverflow before after) =
      if signDigit before = false ∧ signDigit after = true then
        { st with ovf := true }.raiseStop .recoverableOverflow
      else st := by
  rw [addOverflow, apply_ite st.signal]
  simp

/-- The flag of order 34 as a choice of states. -/
theorem signal_subOverflow (before after : OdWord) :
    st.signal (subOverflow before after) =
      if signDigit before = true ∧ signDigit after = false then
        { st with unf := true }.raiseStop .recoverableOverflow
      else st := by
  rw [subOverflow, apply_ite st.signal]
  simp

/-! ### The orders -/

/-- Order 31 at a valid address (R201). -/
theorem exec_stl_valid (b : BIndex) (n : Addr) (h : (st.ea b n).toNat < 512) :
    exec (.stl b n) st =
      .next { st with
        s := BitVec.ofNat 21 st.l.toNat
        main := st.main.write (st.ea b n).toNat (BitVec.ofNat 20 st.l.toNat) } :=
  next_congr (memWrite_zext st.l id h)

/-- Order 32 at a valid address (R202). -/
theorem exec_lda_valid (b : BIndex) (n : Addr) (h : (st.ea b n).toNat < 512) :
    exec (.lda b n) st =
      .next { st with
        s := (st.main.read (st.ea b n).toNat).signExtend 21
        m := if (st.main.read (st.ea b n).toNat).getLsbD 19 then BitVec.allOnes 21 else 0
        l := lowPart (st.main.read (st.ea b n).toNat) } :=
  next_congr (memRead_valid _ _ st h)

/-- What orders 33 and 34 share at a valid address: halves that join to `x` write `x` into the accumulator, with S
mirroring the cell and a flag that looks at the old and the new M (R203, R204). -/
theorem splitOrder_valid {high : OdWord → Low → Word → OdWord} {low : Low → Word → Low}
    {flag : OdWord → OdWord → Option Overflow} {a : Addr} {x : Acc} (h : a.toNat < 512)
    (hx : high st.m st.l (st.main.read a.toNat) ++ low st.l (st.main.read a.toNat) = x) :
    memRead a (fun w u => { u with m := high u.m u.l w, l := low u.l w }.signal (flag u.m (high u.m u.l w))) st =
      ({ st with s := (st.main.read a.toNat).signExtend 21 }.setAcc x).signal (flag st.m (accHigh x)) := by
  rw [memRead_valid _ _ st h, ← hx, State.setAcc, acc_high, acc_low, accHigh_append]
  rfl

/-- Order 33 at a valid address: the whole accumulator takes the sum (R203, R205, D8). -/
theorem exec_ada_valid (b : BIndex) (n : Addr) {x : Acc} (h : (st.ea b n).toNat < 512)
    (hx : st.acc + (st.main.read (st.ea b n).toNat).setWidth 40 = x) :
    exec (.ada b n) st =
      .next (({ st with s := (st.main.read (st.ea b n).toNat).signExtend 21 }.setAcc x).signal
        (addOverflow st.m (accHigh x))) := by
  rw [← ofInt_operandValue_plusOne] at hx
  exact next_congr (splitOrder_valid h ((addHigh_append_addLow _ _ _ _).trans hx))

/-- Order 34 at a valid address: the whole accumulator takes the difference (R204, R205, D8). -/
theorem exec_sba_valid (b : BIndex) (n : Addr) {x : Acc} (h : (st.ea b n).toNat < 512)
    (hx : st.acc - (st.main.read (st.ea b n).toNat).setWidth 40 = x) :
    exec (.sba b n) st =
      .next (({ st with s := (st.main.read (st.ea b n).toNat).signExtend 21 }.setAcc x).signal
        (subOverflow st.m (accHigh x))) := by
  rw [← ofInt_operandValue_plusOne] at hx
  exact next_congr (splitOrder_valid h ((subHigh_append_subLow _ _ _ _).trans hx))

end

end Sys2Proof.Machine

/-! ## The statements on the double-length accumulator orders -/

section
open Sys2Proof Sys2Proof.Machine

/-- Settles O43: the two splits joined, with the operand of each weight. -/
theorem splitArithmeticIsFortyBit : Obligations.SplitArithmeticIsFortyBit := by
  intro m l w
  rw [← ofInt_operandValue_plusOne, ← ofInt_operandValue_minusOne]
  exact ⟨addHigh_append_addLow _ m l w, subHigh_append_subLow _ m l w, addHigh_append_addLow _ m l w,
    subHigh_append_subLow _ m l w⟩

/-- Settles O39: the write of L zero-extended, or the Absolute stop. -/
theorem stlStoresL : Obligations.StlStoresL := by
  intro b n st
  refine ⟨rfl, fun h => ?_, fun h => ?_⟩
  · exact ⟨_, exec_stl_valid b n h, cellWritten_of_main rfl, rfl⟩
  · exact ⟨_, exec_invalid_address rfl h, rfl⟩

/-- Settles O40: the accumulator is the word sign-extended, or the Absolute stop. -/
theorem ldaSignExtends : Obligations.LdaSignExtends := by
  intro b n st w
  refine ⟨rfl, fun h => ?_, fun h => ?_⟩
  · refine ⟨_, exec_lda_valid b n h, lowPart_eq_ofNat w, rfl, ?_, ?_, rfl⟩
    · rw [fill_append_lowPart]
      exact BitVec.toInt_signExtend_of_le (by decide)
    · exact fill_normal (w.getLsbD 19)
  · exact ⟨_, exec_invalid_address rfl h, rfl⟩

/-- Settles O41: the accumulator takes the sum, and the flag follows bit 38 of it. -/
theorem adaAddsTheWord : Obligations.AdaAddsTheWord := by
  intro b n st h w sum t
  rw [exec_ada_valid b n h (add_setWidth_eq_ofNat st.acc w), signal_addOverflow, signDigit_accHigh]
  rfl

/-- Settles O42: the accumulator takes the difference, and the flag follows bit 38 of it. -/
theorem sbaSubtractsTheWord : Obligations.SbaSubtractsTheWord := by
  intro b n st h w diff t
  rw [exec_sba_valid b n h (sub_setWidth_eq_ofInt st.acc w), signal_subOverflow, signDigit_accHigh]
  rfl

/-- Settles O44: order 34 takes away the word that order 33 added, from a state with the same MAIN and B. -/
theorem addThenSubtractRestores : Obligations.AddThenSubtractRestores := by
  intro b n st h
  obtain ⟨t, hada, ht⟩ :
      ∃ t, exec (.ada b n) st = .next t ∧
        AccBecomes st t (st.acc + (st.main.read (st.ea b n).toNat).setWidth 40) :=
    ⟨_, exec_ada_valid b n h rfl, accBecomes_signal⟩
  have hea : t.ea b n = st.ea b n := State.ea_congr ht.b b n
  rw [← hea] at h
  obtain ⟨u, hsba, hu⟩ :
      ∃ u, exec (.sba b n) t = .next u ∧ AccBecomes t u (t.acc - (t.main.read (t.ea b n).toNat).setWidth 40) :=
    ⟨_, exec_sba_valid b n h rfl, accBecomes_signal⟩
  have hrestored : u.acc = st.acc := by
    rw [hu.acc, ht.acc, hea, ht.main, BitVec.add_sub_cancel]
  obtain ⟨hm, hl⟩ := halves_of_acc_eq hrestored
  exact ⟨t, u, hada, hsba, hm, hl, hu.b.trans ht.b, hu.d.trans ht.d, hu.v.trans ht.v, hu.main.trans ht.main⟩

end

/-! ## The shift orders

A shift of the bit pattern is multiplication or floor division of its number by a power of two (R222 to R225), at every
magnitude: what ASR, LSL and LSR do from 40 places on is what their formula gives there anyway. Only ASL is a case of
its own there, and only ASL signals, so what it loses is said once, as a range (`aslLost_iff`). The orders choose a
primitive by the sign of the count (R221). -/

namespace Sys2Proof.Machine

/-! ### Shifted patterns as numbers -/

/-- A left shift is the unsigned product, reduced to the width (R224). -/
theorem shiftLeft_eq_ofNat (a : Acc) (k : Nat) : a <<< k = BitVec.ofNat 40 (a.toNat * 2 ^ k) :=
  congrArg (BitVec.ofNat 40) (Nat.shiftLeft_eq a.toNat k)

/-- A left shift is the signed product as well, since the two readings of A agree modulo 2^40 (R222). -/
theorem shiftLeft_eq_ofInt (a : Acc) (k : Nat) : a <<< k = BitVec.ofInt 40 (a.toInt * 2 ^ k) := by
  have hpow : BitVec.ofNat 40 (2 ^ k) = BitVec.ofInt 40 (2 ^ k) := by
    rw [← BitVec.ofInt_natCast, Nat.cast_pow, Nat.cast_ofNat]
  rw [shiftLeft_eq_ofNat, BitVec.ofNat_mul, BitVec.ofInt_mul, BitVec.ofInt_toInt, BitVec.ofNat_toNat,
    BitVec.setWidth_eq, hpow]

/-- A logical right shift is the floor of the unsigned quotient (R225). -/
theorem ushiftRight_eq_ofNat (a : Acc) (k : Nat) : a >>> k = BitVec.ofNat 40 (a.toNat / 2 ^ k) := by
  have hfits : a.toNat / 2 ^ k < 2 ^ 40 := (Nat.div_le_self _ _).trans_lt a.isLt
  apply BitVec.eq_of_toNat_eq
  rw [BitVec.toNat_ushiftRight, Nat.shiftRight_eq_div_pow, BitVec.toNat_ofNat, Nat.mod_eq_of_lt hfits]

/-- An arithmetic right shift is the floor of the signed quotient (R223). -/
theorem sshiftRight_eq_ofInt (a : Acc) (k : Nat) : a.sshiftRight k = BitVec.ofInt 40 (a.toInt / 2 ^ k) := by
  rw [BitVec.sshiftRight, Int.shiftRight_eq_div_pow, Nat.cast_pow, Nat.cast_ofNat]

/-- The sign A[39] is that of the 40-bit number (R222, D9). -/
theorem signFill_eq (a : Acc) : signFill a = if a.toInt < 0 then BitVec.allOnes 40 else 0 := by
  have hsign : a.getLsbD 39 = decide (a.toInt < 0) := BitVec.msb_eq_toInt (x := a)
  simp only [signFill, hsign, decide_eq_true_eq]

/-- The sign fill is what an arithmetic right shift by the whole width or more leaves (R223). -/
theorem signFill_eq_sshiftRight (a : Acc) {k : Nat} (hk : 40 ≤ k) : signFill a = a.sshiftRight k := by
  apply BitVec.eq_of_getLsbD_eq
  intro i hi
  have hout : ¬k + i < 40 := by omega
  have hin : ¬40 ≤ i := by omega
  have hmsb : a.msb = a.getLsbD 39 := rfl
  rw [BitVec.getLsbD_sshiftRight, if_neg hout, hmsb, signFill]
  cases a.getLsbD 39 with
  | false => simp
  | true => simp only [if_true, BitVec.getLsbD_allOnes, hi, hin, decide_true, decide_false, Bool.not_false,
      Bool.and_self]

/-! ### What the arithmetic left shift loses -/

/-- The bits of A from place `j` on are the floor of its quotient. -/
theorem toNat_topBits (a : Acc) {j w : Nat} (hw : j + w = 40) : (a.extractLsb' j w).toNat = a.toNat / 2 ^ j := by
  have ha : a.toNat < 2 ^ j * 2 ^ w := by
    rw [← pow_add, hw]
    exact a.isLt
  rw [BitVec.extractLsb'_toNat, Nat.shiftRight_eq_div_pow, Nat.mod_eq_of_lt (Nat.div_lt_of_lt_mul ha)]

theorem topBits_eq_zero_iff (a : Acc) {j w : Nat} (hw : j + w = 40) :
    a.extractLsb' j w = 0 ↔ a.toNat < 2 ^ j := by
  rw [← BitVec.toNat_inj, toNat_topBits a hw]
  exact Nat.div_eq_zero_iff_lt (Nat.two_pow_pos j)

theorem topBits_eq_allOnes_iff (a : Acc) {j w : Nat} (hw : j + w = 40) :
    a.extractLsb' j w = BitVec.allOnes w ↔ 2 ^ 40 ≤ a.toNat + 2 ^ j := by
  have hj := Nat.two_pow_pos j
  have hw0 := Nat.two_pow_pos w
  have hq := (a.extractLsb' j w).isLt
  rw [← BitVec.toNat_inj, BitVec.toNat_allOnes]
  rw [toNat_topBits a hw] at hq ⊢
  have hscale : 2 ^ 40 = 2 ^ w * 2 ^ j := by rw [← pow_add, add_comm w, hw]
  rw [hscale, ← Nat.le_div_iff_mul_le hj, Nat.add_div_right _ hj]
  omega

/-- The bits from place `j` on are all equal exactly when the signed A lies between -2^j and 2^j. -/
theorem topBits_uniform_iff (a : Acc) {j w : Nat} (hw : j + w = 40) (hpos : 0 < w) :
    (a.extractLsb' j w = 0 ∨ a.extractLsb' j w = BitVec.allOnes w) ↔ -2 ^ j ≤ a.toInt ∧ a.toInt < 2 ^ j := by
  have hj : 2 ^ j ≤ 2 ^ 39 := Nat.pow_le_pow_right (by decide) (by omega)
  have ha := a.isLt
  have hcast : ((2 ^ j : Nat) : Int) = 2 ^ j := by push_cast; rfl
  rw [topBits_eq_zero_iff a hw, topBits_eq_allOnes_iff a hw, BitVec.toInt_eq_toNat_cond, ← hcast]
  split <;> omega

/-- Up to 39 places the shift loses bits when the product leaves the signed 40-bit range (R222). -/
theorem aslLost_of_le (a : Acc) {k : Nat} (hk : k ≤ 39) :
    aslLost k a = true ↔ a.toInt * 2 ^ k < -2 ^ 39 ∨ 2 ^ 39 ≤ a.toInt * 2 ^ k := by
  have hscale : (2 : Int) ^ 39 = 2 ^ (39 - k) * 2 ^ k := by rw [← pow_add, Nat.sub_add_cancel hk]
  have hk0 : (0 : Int) < 2 ^ k := by positivity
  rw [aslLost, if_pos hk, Bool.and_eq_true, bne_iff_ne, bne_iff_ne, ← not_or,
    topBits_uniform_iff a (by omega) (by omega), hscale, ← neg_mul, mul_lt_mul_iff_left₀ hk0, mul_le_mul_iff_left₀ hk0]
  omega

/-- From 40 places the shift loses what differs from the sign fill (R222, D10). -/
theorem aslLost_of_ge (a : Acc) {k : Nat} (hk : 40 ≤ k) : aslLost k a = true ↔ a ≠ signFill a := by
  rw [aslLost, if_neg (by omega), bne_iff_ne]

/-- When ASL loses bits, for every magnitude (R222, D10). -/
theorem aslLost_iff (a : Acc) (k : Nat) :
    aslLost k a = true ↔
      (k ≤ 39 ∧ (a.toInt * 2 ^ k < -2 ^ 39 ∨ 2 ^ 39 ≤ a.toInt * 2 ^ k)) ∨ (40 ≤ k ∧ a ≠ signFill a) := by
  by_cases hk : k ≤ 39
  · have hnot : ¬40 ≤ k := by omega
    simp [aslLost_of_le a hk, hk, hnot]
  · have hge : 40 ≤ k := by omega
    simp [aslLost_of_ge a hge, hk, hge]

/-- What ASL leaves in the accumulator, lost bits or not (R222, D9). -/
theorem aslValue_eq (a : Acc) (k : Nat) :
    aslValue k a = if k ≤ 39 then BitVec.ofInt 40 (a.toInt * 2 ^ k) else signFill a := by
  rw [aslValue, shiftLeft_eq_ofInt]

section
variable {st : State}

/-! ### The four primitives -/

@[simp] theorem State.setAcc_setAcc (st : State) (x y : Acc) : (st.setAcc x).setAcc y = st.setAcc y := rfl

/-- ASL, where bits are lost: A is written, then OVF and the stop (R222, D11). -/
theorem shiftAsl_of_lost {k : Nat} (h : aslLost k st.acc = true) :
    shiftAsl k st = { st.setAcc (aslValue k st.acc) with ovf := true }.raiseStop .recoverableOverflow := by
  rw [shiftAsl, if_pos h, State.signal_positive]

theorem shiftAsl_of_not_lost {k : Nat} (h : ¬aslLost k st.acc = true) :
    shiftAsl k st = st.setAcc (aslValue k st.acc) := by
  rw [shiftAsl, if_neg h, State.signal_none]

/-- ASR at every magnitude (R223). -/
theorem shiftAsr_eq (k : Nat) : shiftAsr k st = st.setAcc (BitVec.ofInt 40 (st.acc.toInt / 2 ^ k)) := by
  rw [shiftAsr, ← sshiftRight_eq_ofInt]
  split
  · rfl
  · rw [signFill_eq_sshiftRight st.acc (k := k) (by omega)]

/-- LSL at every magnitude (R224). -/
theorem shiftLsl_eq (k : Nat) : shiftLsl k st = st.setAcc (BitVec.ofNat 40 (st.acc.toNat * 2 ^ k)) := by
  rw [shiftLsl, ← shiftLeft_eq_ofNat]
  split
  · rfl
  · rw [BitVec.shiftLeft_eq_zero (by omega), BitVec.ofNat_eq_ofNat]

/-- LSR at every magnitude (R225). -/
theorem shiftLsr_eq (k : Nat) : shiftLsr k st = st.setAcc (BitVec.ofNat 40 (st.acc.toNat / 2 ^ k)) := by
  rw [shiftLsr, ← ushiftRight_eq_ofNat]
  split
  · rfl
  · rw [BitVec.ushiftRight_eq_zero (by omega), BitVec.ofNat_eq_ofNat]

/-! ### The direction -/

variable {own opposite : Nat → State → State} {n : Addr} {k : Nat}

/-- A positive count (R221). -/
theorem shiftBySigned_of_pos (hk : 1 ≤ k) (hn : n.toInt = k) : shiftBySigned own opposite n st = own k st := by
  rw [shiftBySigned, shiftCount, hn, if_pos (by omega), Int.toNat_natCast]

/-- A negative count (R221). -/
theorem shiftBySigned_of_neg (hk : 1 ≤ k) (hn : n.toInt = -k) :
    shiftBySigned own opposite n st = opposite k st := by
  rw [shiftBySigned, shiftCount, hn, if_neg (by omega), if_pos (by omega), neg_neg, Int.toNat_natCast]

/-- Count 0 (R221). -/
theorem shiftBySigned_of_zero (hn : n = 0) : shiftBySigned own opposite n st = st := by
  rw [hn]
  rfl

/-- Only -1024 has no opposite among the counts (R230). -/
theorem shiftCount_neg (h : n ≠ 1024#11) : shiftCount (-n) = -shiftCount n :=
  BitVec.toInt_neg_of_ne_intMin h

/-- The opposite count exchanges the two primitives (R221, R230). -/
theorem shiftBySigned_swap (h : n ≠ 1024#11) :
    shiftBySigned own opposite n st = shiftBySigned opposite own (-n) st := by
  rw [shiftBySigned, shiftBySigned, shiftCount_neg h, neg_neg]
  obtain hneg | hzero | hpos := lt_trichotomy (shiftCount n) 0
  · rw [if_neg (by omega), if_pos hneg, if_pos (by omega)]
  · rw [if_neg (by omega), if_neg (by omega), if_neg (by omega), if_neg (by omega)]
  · rw [if_pos hpos, if_neg (by omega), if_pos (by omega)]

/-! ### By 19 and back -/

/-- The arithmetic pair restores what the left shift keeps in range (R230). -/
theorem shiftAsr_shiftAsl_19 (hlo : -2 ^ 20 ≤ st.acc.toInt) (hhi : st.acc.toInt < 2 ^ 20) :
    shiftAsr 19 (shiftAsl 19 st) = st := by
  have hkept : ¬aslLost 19 st.acc = true := by
    rw [aslLost_of_le st.acc (by decide)]
    omega
  have hproduct : (BitVec.ofInt 40 (st.acc.toInt * 2 ^ 19)).toInt = st.acc.toInt * 2 ^ 19 :=
    BitVec.toInt_ofInt_eq_self (by decide) (by omega) (by omega)
  rw [shiftAsl_of_not_lost hkept, aslValue_eq, if_pos (by decide), shiftAsr_eq, State.acc_setAcc, hproduct,
    Int.mul_ediv_cancel _ (by decide), BitVec.ofInt_toInt, State.setAcc_setAcc, State.setAcc_acc]

/-- The logical pair restores what has no bit to lose (R230). -/
theorem shiftLsr_shiftLsl_19 (h : st.acc.toNat < 2 ^ 21) : shiftLsr 19 (shiftLsl 19 st) = st := by
  have hproduct : (BitVec.ofNat 40 (st.acc.toNat * 2 ^ 19)).toNat = st.acc.toNat * 2 ^ 19 := by
    rw [BitVec.toNat_ofNat, Nat.mod_eq_of_lt (by omega)]
  rw [shiftLsl_eq, shiftLsr_eq, State.acc_setAcc, hproduct, Nat.mul_div_cancel _ (by decide), BitVec.ofNat_toNat,
    BitVec.setWidth_eq, State.setAcc_setAcc, State.setAcc_acc]

end

end Sys2Proof.Machine

/-! ## The statements on the shift orders -/

section
open Sys2Proof Sys2Proof.Machine

/-- Settles O45: the primitive that the count selects, in both of its outcomes. -/
theorem arithmeticLeftShift : Obligations.ArithmeticLeftShift := by
  intro b n st k hk a fill value lost t
  have hlost : aslLost k st.acc = true ↔ lost := by
    rw [aslLost_iff, signFill_eq]
    rfl
  have hvalue : st.setAcc (aslValue k st.acc) = t := by
    rw [aslValue_eq, signFill_eq]
    rfl
  have hstops : lost → shiftAsl k st = { t with ovf := true }.raiseStop .recoverableOverflow := fun h => by
    rw [shiftAsl_of_lost (hlost.mpr h), hvalue]
  have hkeeps : ¬lost → shiftAsl k st = t := fun h => by
    rw [shiftAsl_of_not_lost (mt hlost.mp h), hvalue]
  refine ⟨fun ⟨hn, h⟩ => ?_, fun ⟨hn, h⟩ => ?_, fun ⟨hn, h⟩ => ?_, fun ⟨hn, h⟩ => ?_⟩
  · exact next_congr ((shiftBySigned_of_pos hk hn).trans (hstops h))
  · exact next_congr ((shiftBySigned_of_pos hk hn).trans (hkeeps h))
  · exact next_congr ((shiftBySigned_of_neg hk hn).trans (hstops h))
  · exact next_congr ((shiftBySigned_of_neg hk hn).trans (hkeeps h))

/-- Settles O46: one formula holds of ASR at every magnitude. -/
theorem arithmeticRightShift : Obligations.ArithmeticRightShift := by
  intro b n st
  refine ⟨fun k hk => ⟨fun hn => ?_, fun hn => ?_⟩, fun hn => ⟨?_, ?_⟩⟩
  · exact next_congr ((shiftBySigned_of_pos hk hn).trans (shiftAsr_eq k))
  · exact next_congr ((shiftBySigned_of_neg hk hn).trans (shiftAsr_eq k))
  · exact next_congr (shiftBySigned_of_zero hn)
  · exact next_congr (shiftBySigned_of_zero hn)

/-- Settles O47: the two formulas hold of LSL and LSR at every magnitude. -/
theorem logicalShifts : Obligations.LogicalShifts := by
  intro b n st
  refine ⟨rfl, rfl, fun k hk => ⟨fun hn => ⟨?_, ?_⟩, fun hn => ⟨?_, ?_⟩⟩, fun hn => ⟨?_, ?_⟩⟩
  · exact next_congr ((shiftBySigned_of_pos hk hn).trans (shiftLsl_eq k))
  · exact next_congr ((shiftBySigned_of_pos hk hn).trans (shiftLsr_eq k))
  · exact next_congr ((shiftBySigned_of_neg hk hn).trans (shiftLsr_eq k))
  · exact next_congr ((shiftBySigned_of_neg hk hn).trans (shiftLsl_eq k))
  · exact next_congr (shiftBySigned_of_zero hn)
  · exact next_congr (shiftBySigned_of_zero hn)

/-- Settles O48: the direction is the same choice for both pairs of primitives. -/
theorem shiftDirectionsAreMirrors : Obligations.ShiftDirectionsAreMirrors := by
  intro b b' n st hn
  exact ⟨next_congr (shiftBySigned_swap hn), next_congr (shiftBySigned_swap hn)⟩

/-- Settles O49: count 19 selects each order's own primitive, and each pair of primitives restores the state. -/
theorem shiftBy19AndBackRestores : Obligations.ShiftBy19AndBackRestores := by
  intro b b' st
  refine ⟨fun hlo hhi => ⟨shiftAsl 19 st, rfl, ?_⟩, fun h => ⟨shiftLsl 19 st, rfl, ?_⟩⟩
  · exact next_congr (shiftAsr_shiftAsl_19 hlo hhi)
  · exact next_congr (shiftLsr_shiftLsl_19 h)

end

/-! ## The orders on M

The orders of 46_m_orders.md compute the exact sum or difference of two signed 20-bit numbers, which always fits 21
bits. So the 21-bit pattern tells the exact result, and its overflow digit differs from its sign digit exactly when
the result leaves the 20-bit range (R250). The loads of 47_d_v_orders.md share the shape of order 42. -/

namespace Sys2Proof.Machine

/-! ### Patterns and values -/

theorem cellBits_eq_extract (r : OdWord) : cellBits r = r.extractLsb' 0 20 :=
  BitVec.setWidth_eq_extractLsb' (by decide)

/-- `val(R)` is the signed value of the digits below the overflow digit (R30). -/
theorem val_eq_extract (r : OdWord) : val r = (r.extractLsb' 0 20).toInt := by
  rw [val, cellBits_eq_extract]

/-- A cell keeps the residue modulo 2^20 of the integer whose residue modulo 2^21 is in S (R65). -/
theorem cellBits_ofInt (x : Int) : cellBits (BitVec.ofInt 21 x) = BitVec.ofInt 20 x := by
  apply BitVec.eq_of_toNat_eq
  rw [cellBits, BitVec.toNat_setWidth, BitVec.toNat_ofInt, BitVec.toNat_ofInt]
  omega

/-- Bit 20 of a sign-extended cell is the cell's bit 19 (R32, D4). -/
theorem getLsbD_signExtend_21 (w : Word) {j : Nat} (hj : j < 21) :
    (w.signExtend 21).getLsbD j = if j < 20 then w.getLsbD j else w.getLsbD 19 := by
  rw [BitVec.getLsbD_signExtend, decide_eq_true hj, Bool.true_and, BitVec.msb_eq_getLsbD_last]

/-- Overflow is the loss of normal form (R31, R32, D3). -/
theorem hasOverflowed_iff_not_normal (r : OdWord) : hasOverflowed r = true ↔ ¬NormalForm r :=
  hasOverflowed_iff r

theorem word_add_range (u w : Word) : -2 ^ 20 ≤ u.toInt + w.toInt ∧ u.toInt + w.toInt < 2 ^ 20 := by
  have hu := word_range u
  have hw := word_range w
  omega

theorem word_sub_range (u w : Word) : -2 ^ 20 ≤ u.toInt - w.toInt ∧ u.toInt - w.toInt < 2 ^ 20 := by
  have hu := word_range u
  have hw := word_range w
  omega

section
variable {st : State} {x : Int}

/-! ### The check of S -/

theorem checkS_of_normal (h : NormalForm st.s) : st.checkS = st := by
  rw [State.checkS_eq, if_neg (mt (hasOverflowed_iff_not_normal st.s).mp (not_not.mpr h))]

theorem checkS_of_not_normal (h : ¬NormalForm st.s) : st.checkS = st.raiseStop .irrecoverableOverflow := by
  rw [State.checkS_eq, if_pos ((hasOverflowed_iff_not_normal st.s).mpr h)]

/-- When S holds the pattern of an exact result, the check looks at the range of that result (R256). -/
theorem checkS_of_ofInt (hs : st.s = BitVec.ofInt 21 x) (hx : -2 ^ 20 ≤ x ∧ x < 2 ^ 20) :
    st.checkS = if x < -2 ^ 19 ∨ 2 ^ 19 - 1 < x then st.raiseStop .irrecoverableOverflow else st := by
  simp only [State.checkS_eq, hs, hasOverflowed_ofInt x hx.1 hx.2]

/-! ### The single-length add -/

/-- `SingleAdd` overflows in the direction in which the exact result leaves its range: an overflowed result is not 0,
so its sign tells the direction (R250, D13). -/
theorem singleOverflow_eq {r : OdWord} {v sign : Int} (hsum : singleSum r v sign = x)
    (hx : -2 ^ 20 ≤ x ∧ x < 2 ^ 20) :
    singleOverflow r v sign =
      if 2 ^ 19 - 1 < x then some .positive else if x < -2 ^ 19 then some .negative else none := by
  simp only [singleOverflow, singleValue, hsum, hasOverflowed_ofInt x hx.1 hx.2]
  by_cases hhigh : 2 ^ 19 - 1 < x
  · rw [if_pos (.inr hhigh), if_pos (by omega), if_pos hhigh]
  by_cases hlow : x < -2 ^ 19
  · rw [if_pos (.inl hlow), if_neg (by omega), if_neg hhigh, if_pos hlow]
  · rw [if_neg (not_or.mpr ⟨hlow, hhigh⟩), if_neg hhigh, if_neg hlow]

/-- The flag and the stop of `SingleAdd` as a choice of states (R250, R305). -/
theorem signal_singleOverflow {r : OdWord} {v sign : Int} (hsum : singleSum r v sign = x)
    (hx : -2 ^ 20 ≤ x ∧ x < 2 ^ 20) :
    st.signal (singleOverflow r v sign) =
      if 2 ^ 19 - 1 < x then { st with ovf := true }.raiseStop .recoverableOverflow
      else if x < -2 ^ 19 then { st with unf := true }.raiseStop .recoverableOverflow
      else st := by
  rw [singleOverflow_eq hsum hx, apply_ite st.signal, apply_ite st.signal, State.signal_positive,
    State.signal_negative, State.signal_none]

/-! ### The orders -/

/-- Orders 43 and 44 at a valid address, the exact result given: M takes its pattern before the flag is set (R250, R254,
R255). -/
theorem memRead_singleAddM_valid {a : Addr} {sign : Int} (h : a.toNat < 512)
    (hsum : singleSum st.m (st.main.read a.toNat).toInt sign = x) :
    memRead a (fun w u => singleAddM w.toInt sign u) st =
      { st with s := (st.main.read a.toNat).signExtend 21, m := BitVec.ofInt 21 x }.signal
        (singleOverflow st.m (st.main.read a.toNat).toInt sign) := by
  rw [memRead_valid _ _ st h, singleAddM, singleValue, hsum]
  rfl

/-- Orders 45 and 46 at a valid address, the exact result given: S and the cell take its pattern, and then its range is
checked (R256, R257, D14). -/
theorem addMToStore_effect {sign : Int} (b : BIndex) (n : Addr) (h : (st.ea b n).toNat < 512)
    (hsum : (st.main.read (st.ea b n).toNat).toInt + sign * val st.m = x) (hx : -2 ^ 20 ≤ x ∧ x < 2 ^ 20) :
    ∃ t, CellWritten st t (st.ea b n).toNat (BitVec.ofInt 20 x) ∧
      t = { st with s := BitVec.ofInt 21 x, main := t.main } ∧
      addMToStore sign b n st =
        if x < -2 ^ 19 ∨ 2 ^ 19 - 1 < x then t.raiseStop .irrecoverableOverflow else t := by
  refine ⟨{ st with
    s := BitVec.ofInt 21 x
    main := st.main.write (st.ea b n).toNat (BitVec.ofInt 20 x) }, cellWritten_of_main rfl, rfl, ?_⟩
  rw [addMToStore, memRead_valid _ _ st h, memWrite_valid _ _ _ _ h, hsum, cellBits_ofInt]
  exact checkS_of_ofInt rfl hx

/-- Order 49 at a valid address: the cell takes the old M, and M the cell as it was read before. S holds the old M, and
is checked last (R260, D14, D38). -/
theorem exec_xcm_effect (b : BIndex) (n : Addr) (h : (st.ea b n).toNat < 512) :
    ∃ t, CellWritten st t (st.ea b n).toNat (st.m.extractLsb' 0 20) ∧
      t = { st with s := st.m, m := (st.main.read (st.ea b n).toNat).signExtend 21, main := t.main } ∧
      exec (.xcm b n) st = .next t.checkS := by
  rw [← cellBits_eq_extract]
  refine ⟨{ st with
    s := st.m
    m := (st.main.read (st.ea b n).toNat).signExtend 21
    main := st.main.write (st.ea b n).toNat (cellBits st.m) }, cellWritten_of_main rfl, rfl, ?_⟩
  exact next_congr ((memRead_valid _ _ st h).trans (memWrite_valid _ _ _ _ h))

end

end Sys2Proof.Machine

/-! ## The statements on the orders on M -/

section
open Sys2Proof Sys2Proof.Machine

/-- Settles O50: each load takes S as the read left it, or the read is the Absolute stop. -/
theorem loadsTakeTheSignedWord : Obligations.LoadsTakeTheSignedWord := by
  intro b n st w
  refine ⟨rfl, rfl, rfl, fun h => ?_, fun h => ⟨?_, ?_, ?_⟩⟩
  · have hval : ((sext21 w).extractLsb' 0 20).toInt = w.toInt := by rw [← val_eq_extract, val_sext21]
    refine ⟨sext21 w, toInt_sext21 w, hval, sext21_normal w, ?_, ?_, ?_⟩
    · exact next_congr (memRead_valid _ _ st h)
    · exact next_congr (memRead_valid _ _ st h)
    · exact next_congr (memRead_valid _ _ st h)
  · exact ⟨_, exec_invalid_address rfl h, rfl⟩
  · exact ⟨_, exec_invalid_address rfl h, rfl⟩
  · exact ⟨_, exec_invalid_address rfl h, rfl⟩

/-- Settles O51: orders 41 and 42 have one rule body, and order 40 clears after the same read. -/
theorem lmcClearsAndLmnLoads : Obligations.LmcClearsAndLmnLoads := by
  intro b n st
  refine ⟨rfl, fun h => ⟨sext21 (st.main.read (st.ea b n).toNat), toInt_sext21 _, ?_, ?_⟩⟩
  · exact next_congr (memRead_valid _ _ st h)
  · exact next_congr (memRead_valid _ _ st h)

/-- Settles O52: `SingleAdd` with each sign, of two values in the signed 20-bit range. -/
theorem singleAddOnM : Obligations.SingleAddOnM := by
  intro b n st h w result
  have hadd : singleSum st.m w.toInt 1 = (st.m.extractLsb' 0 20).toInt + w.toInt := by
    rw [singleSum, one_mul, val_eq_extract]
  have hsub : singleSum st.m w.toInt (-1) = (st.m.extractLsb' 0 20).toInt - w.toInt := by
    rw [singleSum, neg_one_mul, ← sub_eq_add_neg, val_eq_extract]
  refine ⟨next_congr ?_, next_congr ?_⟩
  · exact (memRead_singleAddM_valid h hadd).trans (signal_singleOverflow hadd (word_add_range _ w))
  · exact (memRead_singleAddM_valid h hsub).trans (signal_singleOverflow hsub (word_sub_range _ w))

/-- Settles O54: the write of the exact result's pattern, then the check of S as a check of its range. -/
theorem addMIntoTheStore : Obligations.AddMIntoTheStore := by
  intro b n st x h a result
  refine ⟨fun hx => ?_, fun hx => ?_⟩
  · have hsum : (st.main.read a).toInt + 1 * val st.m = x := by rw [one_mul, val_eq_extract, hx]
    obtain ⟨t, hcell, ht, hresult⟩ := addMToStore_effect b n h hsum (hx ▸ word_add_range _ _)
    exact ⟨t, hcell, ht, next_congr hresult⟩
  · have hsum : (st.main.read a).toInt + -1 * val st.m = x := by
      rw [neg_one_mul, ← sub_eq_add_neg, val_eq_extract, hx]
    obtain ⟨t, hcell, ht, hresult⟩ := addMToStore_effect b n h hsum (hx ▸ word_sub_range _ _)
    exact ⟨t, hcell, ht, next_congr hresult⟩

/-- Settles O55: the operand is S as the read left it, whose bits are those of the sign-extended cell. -/
theorem logicOnM : Obligations.LogicOnM := by
  intro b n st h w operand
  refine ⟨⟨_, next_congr (memRead_valid _ _ st h), rfl, fun j hj => ?_⟩,
    ⟨_, next_congr (memRead_valid _ _ st h), rfl, fun j hj => ?_⟩⟩
  · exact (BitVec.getLsbD_xor ..).trans (congrArg (st.m.getLsbD j != ·) (getLsbD_signExtend_21 w hj))
  · exact (BitVec.getLsbD_and ..).trans (congrArg (st.m.getLsbD j && ·) (getLsbD_signExtend_21 w hj))

/-- Settles O56: the two writes, and the check of S, which holds the old M. -/
theorem xcmExchangesCellAndM : Obligations.XcmExchangesCellAndM := by
  intro b n st h
  obtain ⟨t, hcell, ht, hexec⟩ := exec_xcm_effect b n h
  have hs : t.s = st.m := congrArg State.s ht
  refine ⟨t, hcell, ht, fun hm => ?_, fun hm => ?_⟩
  · rw [← hs] at hm
    rw [hexec, checkS_of_normal hm]
  · rw [← hs] at hm
    rw [hexec, checkS_of_not_normal hm]

end

/-! ## The orders on D

Orders 53 and 54 are the single-length add of 46_m_orders.md on another register. The multiply of 47_d_v_orders.md
writes the whole accumulator: the exact product always fits 40 bits, M is the floor of its quotient by 2^19, and so M
leaves normal form only for the one product that reaches 2^38 (R285). -/

namespace Sys2Proof.Machine

/-! ### The high half as a number -/

/-- As a signed number, M is the accumulator counted in units of 2^19, rounded down (R13, R25). -/
theorem toInt_accHigh (x : Acc) : (accHigh x).toInt = x.toInt / 2 ^ 19 := by
  have hx := x.isLt
  rw [BitVec.toInt_eq_toNat_cond, BitVec.toInt_eq_toNat_cond, accHigh, toNat_topBits x rfl]
  split <;> split <;> omega

/-- M is in normal form when the accumulator's upper two digits agree (R32). -/
theorem accHigh_normal_iff (x : Acc) : NormalForm (accHigh x) ↔ -2 ^ 38 ≤ x.toInt ∧ x.toInt < 2 ^ 38 := by
  rw [NormalForm, normal_iff_range, toInt_accHigh]
  omega

/-! ### The exact product -/

/-- No product of two signed words exceeds 2^38 in magnitude, and -2^38 itself is not reached: it would take 2^19 as a
factor, which is above the range of a word (R285). -/
theorem word_mul_range (u w : Word) : -2 ^ 38 + 2 ^ 19 ≤ u.toInt * w.toInt ∧ u.toInt * w.toInt ≤ 2 ^ 38 := by
  obtain ⟨hulo, huhi⟩ := word_range u
  obtain ⟨hwlo, hwhi⟩ := word_range w
  have hbelow : 0 ≤ (u.toInt + 2 ^ 19) * (w.toInt + 2 ^ 19) := mul_nonneg (by omega) (by omega)
  have habove : 0 ≤ (2 ^ 19 - 1 - u.toInt) * (2 ^ 19 - 1 - w.toInt) := mul_nonneg (by omega) (by omega)
  exact ⟨by linarith, BitVec.toInt_mul_toInt_le⟩

theorem product_eq (w : Word) (d : OdWord) : product w d = w.toInt * (d.extractLsb' 0 20).toInt := by
  rw [product, val_eq_extract]

section
variable {st : State} {x : Int}

/-- An integer in the range of products is the value of its 40-bit pattern. -/
theorem toInt_ofInt_of_product_range (hlo : -2 ^ 38 + 2 ^ 19 ≤ x) (hhi : x ≤ 2 ^ 38) :
    (BitVec.ofInt 40 x).toInt = x := by
  rw [BitVec.toInt_ofInt, Int.bmod_eq_of_le (by omega) (by omega)]

/-- Of the integers in the range of products, 2^38 alone puts M out of normal form (R285). -/
theorem accHigh_ofInt_normal_iff (hlo : -2 ^ 38 + 2 ^ 19 ≤ x) (hhi : x ≤ 2 ^ 38) :
    NormalForm (accHigh (BitVec.ofInt 40 x)) ↔ x ≠ 2 ^ 38 := by
  rw [accHigh_normal_iff, toInt_ofInt_of_product_range hlo hhi]
  omega

/-- The check of M after a product that leaves it in normal form (R285). -/
theorem loadProduct_of_normal (h : NormalForm (accHigh (BitVec.ofInt 40 x))) :
    loadProduct x st = st.setAcc (BitVec.ofInt 40 x) := by
  have hcheck : ¬hasOverflowed (accHigh (BitVec.ofInt 40 x)) = true :=
    mt (hasOverflowed_iff_not_normal _).mp (not_not.mpr h)
  exact congrArg (st.setAcc (BitVec.ofInt 40 x)).signal (if_neg hcheck)

/-- The check of M after a product that does not: the flag is OVF (R285, D13). -/
theorem loadProduct_of_not_normal (h : ¬NormalForm (accHigh (BitVec.ofInt 40 x))) :
    loadProduct x st =
      { st.setAcc (BitVec.ofInt 40 x) with ovf := true }.raiseStop .recoverableOverflow :=
  congrArg (st.setAcc (BitVec.ofInt 40 x)).signal (if_pos ((hasOverflowed_iff_not_normal _).mpr h))

/-! ### The orders -/

/-- Order 56 at a valid address, the exact product given (R285). -/
theorem exec_mul_valid (b : BIndex) (n : Addr) (h : (st.ea b n).toNat < 512)
    (hx : product (st.main.read (st.ea b n).toNat) st.d = x) :
    exec (.mul b n) st =
      .next (loadProduct x { st with s := (st.main.read (st.ea b n).toNat).signExtend 21 }) := by
  rw [← hx]
  exact next_congr (memRead_valid _ _ st h)

/-- Orders 53 and 54 at a valid address, the exact result given: D takes its pattern, and the flag and the stop follow
its range (R250, R282, R283, D13). -/
theorem memRead_singleAddD_valid {a : Addr} {sign : Int} (h : a.toNat < 512)
    (hsum : singleSum st.d (st.main.read a.toNat).toInt sign = x) (hx : -2 ^ 20 ≤ x ∧ x < 2 ^ 20) :
    memRead a (fun w u => singleAddD w.toInt sign u) st =
      let t : State := { st with s := (st.main.read a.toNat).signExtend 21, d := BitVec.ofInt 21 x }
      if 2 ^ 19 - 1 < x then { t with ovf := true }.raiseStop .recoverableOverflow
      else if x < -2 ^ 19 then { t with unf := true }.raiseStop .recoverableOverflow
      else t := by
  rw [memRead_valid _ _ st h, singleAddD, singleValue, hsum]
  exact signal_singleOverflow hsum hx

/-- Order 51 at a valid address: the cell and S take D, and S is checked last (R280, D14). -/
theorem exec_std_valid (b : BIndex) (n : Addr) (h : (st.ea b n).toNat < 512) :
    exec (.std b n) st =
      .next { st with
        s := st.d
        main := st.main.write (st.ea b n).toNat (st.d.extractLsb' 0 20) }.checkS := by
  rw [← cellBits_eq_extract]
  exact next_congr (memWrite_valid _ _ _ st h)

end

end Sys2Proof.Machine

/-! ## The statements on the orders on D -/

section
open Sys2Proof Sys2Proof.Machine

/-- Settles O53: `SingleAdd` on D with each sign, of two values in the signed 20-bit range. -/
theorem singleAddOnD : Obligations.SingleAddOnD := by
  intro b n st h w result
  have hadd : singleSum st.d w.toInt 1 = (st.d.extractLsb' 0 20).toInt + w.toInt := by
    rw [singleSum, one_mul, val_eq_extract]
  have hsub : singleSum st.d w.toInt (-1) = (st.d.extractLsb' 0 20).toInt - w.toInt := by
    rw [singleSum, neg_one_mul, ← sub_eq_add_neg, val_eq_extract]
  exact ⟨next_congr (memRead_singleAddD_valid h hadd (word_add_range _ w)),
    next_congr (memRead_singleAddD_valid h hsub (word_sub_range _ w))⟩

/-- Settles O57: the write of D, and the check of S, which holds D. -/
theorem stdStoresD : Obligations.StdStoresD := by
  intro b n st h
  refine ⟨{ st with s := st.d, main := st.main.write (st.ea b n).toNat (st.d.extractLsb' 0 20) },
    cellWritten_of_main rfl, rfl, fun hd => ?_, fun hd => ?_⟩
  · exact (exec_std_valid b n h).trans (next_congr (checkS_of_normal hd))
  · exact (exec_std_valid b n h).trans (next_congr (checkS_of_not_normal hd))

/-- Settles O59: the product is in range, its 40-bit pattern is exact, and M's normal form tells 2^38 from the rest. -/
theorem mulIsExact : Obligations.MulIsExact := by
  intro b n st h w p
  obtain ⟨hlo, hhi⟩ : -2 ^ 38 + 2 ^ 19 ≤ p ∧ p ≤ 2 ^ 38 := word_mul_range w (st.d.extractLsb' 0 20)
  have hnormal : NormalForm (accHigh (BitVec.ofInt 40 p)) ↔ p ≠ 2 ^ 38 := accHigh_ofInt_normal_iff hlo hhi
  have hexec := exec_mul_valid b n h (product_eq w st.d)
  refine ⟨{ st with s := w.signExtend 21 }.setAcc (BitVec.ofInt 40 p),
    ?_, hlo, hhi, rfl, fun hp => ?_, fun hp => ⟨?_, ?_⟩⟩
  · exact (congrArg BitVec.toInt (acc_split _)).trans (toInt_ofInt_of_product_range hlo hhi)
  · exact hexec.trans (next_congr (loadProduct_of_not_normal fun hm => hnormal.mp hm hp))
  · exact hnormal.mpr hp
  · exact hexec.trans (next_congr (loadProduct_of_normal (hnormal.mpr hp)))

/-- Settles O58: the immediate is widened with zeros, and the exchange reads both registers before it writes. -/
theorem lidAndXmdWriteD : Obligations.LidAndXmdWriteD := by
  intro b n st
  refine ⟨⟨_, rfl, ?_, rfl⟩, ⟨_, rfl, rfl, rfl, rfl⟩⟩
  exact BitVec.toNat_setWidth_of_le (by decide)

end

/-! ## The invariant of the machine

A step that dispatches clears the status, and the order's last act is the only one that touches it again: it raises one
stop, flags one direction, or puts back the status that the step before left. So the agreement of OVF, UNF and STOP is
followed from the cleared status through the shared operations. MAIN, C and V are read off the order's frame, and the
few orders that write MAIN or V are looked at one by one. -/

namespace Sys2Proof.Machine

section
variable {st t : State}

/-! ### The status an order runs under -/

/-- Before an order's last act STOP is none, both flags are clear, and the status to restore is consistent (R115). -/
def StatusCleared (st : State) : Prop :=
  st.stop = none ∧ st.ovf = false ∧ st.unf = false ∧ StatusConsistent st.restoreStatus

theorem StatusCleared.consistent (h : StatusCleared st) : StatusConsistent st := by
  obtain ⟨hstop, hovf, hunf, _⟩ := h
  simp [StatusConsistent, hstop, hovf, hunf]

theorem StatusCleared.restores (h : StatusCleared st) : StatusConsistent st.restoreStatus := by
  obtain ⟨_, _, _, hsaved⟩ := h
  exact hsaved

/-- Only RecoverableOverflow needs a flag beside it (R305). -/
theorem StatusCleared.stops (h : StatusCleared st) {r : StopReason} (hr : r ≠ .recoverableOverflow) :
    StatusConsistent (st.raiseStop r) := by
  obtain ⟨_, hovf, hunf, _⟩ := h
  simp [StatusConsistent, hovf, hunf, hr]

/-- The flag of one direction comes with RecoverableOverflow (R305). -/
theorem StatusCleared.signals (h : StatusCleared st) (o : Option Overflow) : StatusConsistent (st.signal o) := by
  have ⟨_, hovf, hunf, _⟩ := h
  match o with
  | none => exact h.consistent
  | some .positive => simp [StatusConsistent, hunf]
  | some .negative => simp [StatusConsistent, hovf]

/-- IrrecoverableOverflow sets no flag (R306, D14). -/
theorem StatusCleared.checksS (h : StatusCleared st) : StatusConsistent st.checkS := by
  rw [State.checkS_eq]
  split
  · exact h.stops nofun
  · exact h.consistent

theorem StatusCleared.memRead (h : StatusCleared st) {a : Addr} {rest : Word → State → State}
    (hrest : ∀ w u, StatusCleared u → StatusConsistent (rest w u)) : StatusConsistent (memRead a rest st) := by
  obtain ⟨_, heq⟩ | ⟨_, heq⟩ := memRead_cases a rest st <;> rw [heq]
  · exact hrest _ _ h
  · exact h.stops nofun

theorem StatusCleared.memWrite (h : StatusCleared st) {a : Addr} {x : OdWord} {rest : State → State}
    (hrest : ∀ u, StatusCleared u → StatusConsistent (rest u)) : StatusConsistent (memWrite a x rest st) := by
  obtain ⟨_, heq⟩ | ⟨_, heq⟩ := memWrite_cases a x rest st <;> rw [heq]
  · exact hrest _ h
  · exact h.stops nofun

theorem StatusCleared.shiftAsl (h : StatusCleared st) (k : Nat) : StatusConsistent (shiftAsl k st) :=
  StatusCleared.signals (st := st.setAcc (aslValue k st.acc)) h _

theorem StatusCleared.shiftBySigned (h : StatusCleared st) {own opposite : Nat → State → State} {n : Addr}
    (hown : ∀ k, StatusConsistent (own k st)) (hopp : ∀ k, StatusConsistent (opposite k st)) :
    StatusConsistent (shiftBySigned own opposite n st) := by
  unfold Machine.shiftBySigned
  split_ifs
  · exact hown _
  · exact hopp _
  · exact h.consistent

/-- Every order leaves OVF, UNF and STOP in agreement, one case for each way in which orders end. -/
theorem exec_statusConsistent {i : Instr} (hst : StatusCleared st) (h : exec i st = .next t) :
    StatusConsistent t := by
  cases i with
  | stop b n =>
    cases h
    change StatusConsistent (if _ then _ else _)
    split_ifs
    · exact hst.stops nofun
    · exact hst.stops nofun
    · exact hst.stops nofun
    · exact hst.restores
  | undef11 b n | undef18 b n | undef19 b n | undef30 b n | undef35 b n | undef50 b n | undef57 b n | undef58 b n
  | undef61 b n | undef62 b n | undef63 b n =>
    cases h
    exact hst.stops nofun
  | lib b n | aib b n | sib b n | jbp b n | jbn b n | dj1 b n | dj2 b n | jan b n | jap b n | jaz b n | juf b n
  | jof b n | jmp b n | jsw b n | dis b n | lid b n | xmd b n =>
    cases h
    exact hst.consistent
  | mda b n =>
    cases h
    exact hst.restores
  | mds b n =>
    cases h
    exact hst.memRead fun _ _ hu => hu.restores
  | ldb b n | adb b n | sbb b n | anb b n | out b n | con b n | lda b n | lmc b n | lmn b n | ldm b n | xrm b n
  | anm b n | ldd b n | ldv b n =>
    cases h
    exact hst.memRead fun _ _ hu => hu.consistent
  | stb b n | stl b n =>
    cases h
    exact hst.memWrite fun _ hu => hu.consistent
  | xcb b n =>
    cases h
    exact hst.memRead fun _ _ hu => hu.memWrite fun _ hv => hv.consistent
  | rdt b n =>
    cases h
    change StatusConsistent (if _ then _ else _)
    split_ifs
    · exact StatusCleared.memWrite (st := st.tapeAdvance.setB b (codeToB st.tapeCode)) hst fun _ hu => hu.consistent
    · exact hst.stops nofun
  | ada b n | sba b n | adm b n | sbm b n | add b n | sbd b n | mul b n =>
    cases h
    refine hst.memRead fun _ _ hu => StatusCleared.signals ?_ _
    exact hu
  | asl b n =>
    cases h
    exact hst.shiftBySigned hst.shiftAsl fun _ => hst.consistent
  | asr b n =>
    cases h
    exact hst.shiftBySigned (fun _ => hst.consistent) hst.shiftAsl
  | lsl b n | lsr b n =>
    cases h
    exact hst.shiftBySigned (fun _ => hst.consistent) fun _ => hst.consistent
  | asm b n | ssm b n =>
    cases h
    exact hst.memRead fun _ _ hu => hu.memWrite fun _ hv => hv.checksS
  | xcm b n =>
    cases h
    exact hst.memRead fun _ _ hu => hu.memWrite fun _ hv => StatusCleared.checksS hv
  | std b n =>
    cases h
    exact hst.memWrite fun _ hu => hu.checksS

/-! ### The canonical form of MAIN -/

/-- A write at a checked address keeps the canonical form, when the rest of the order keeps MAIN. -/
theorem memWrite_main_wf {a : Addr} {mirror : OdWord} {rest : State → State} (hm : st.main.wf)
    (hrest : ∀ u, (rest u).main = u.main) : (memWrite a mirror rest st).main.wf := by
  obtain ⟨ha, h⟩ | ⟨_, h⟩ := memWrite_cases a mirror rest st <;> rw [h]
  · rw [hrest]
    exact Memory.write_wf _ _ _ hm ha
  · exact hm

theorem memRead_main_wf {a : Addr} {rest : Word → State → State} (hm : st.main.wf)
    (hrest : ∀ w u, u.main.wf → (rest w u).main.wf) : (memRead a rest st).main.wf := by
  obtain ⟨_, h⟩ | ⟨_, h⟩ := memRead_cases a rest st <;> rw [h]
  · exact hrest _ _ hm
  · exact hm

/-- Every order keeps MAIN in its canonical form: it keeps MAIN, or is one of the eight that store (R68). -/
theorem exec_main_wf {i : Instr} (hm : st.main.wf) (h : exec i st = .next t) : t.main.wf := by
  by_cases hi : codeIn i storingCodes
  case neg =>
    rw [(exec_frame h).main.resolve_right hi]
    exact hm
  cases i with
  | stb b n | stl b n =>
    cases h
    exact memWrite_main_wf hm fun _ => rfl
  | std b n =>
    cases h
    exact memWrite_main_wf hm State.checkS_main
  | xcb b n =>
    cases h
    exact memRead_main_wf hm fun _ _ hu => memWrite_main_wf hu fun _ => rfl
  | asm b n | ssm b n =>
    cases h
    exact memRead_main_wf hm fun _ _ hu => memWrite_main_wf hu State.checkS_main
  | xcm b n =>
    cases h
    exact memRead_main_wf hm fun _ _ hu => memWrite_main_wf hu fun _ => State.checkS_main _
  | rdt b n =>
    cases h
    split_ifs
    · exact memWrite_main_wf hm fun _ => rfl
    · exact hm
  | _ => nomatch hi

/-! ### The normal form of V -/

/-- Every order keeps V in normal form: only order 60 writes it, with a sign-extended word (R32, R287). -/
theorem exec_v_normal {i : Instr} (hv : NormalForm st.v) (h : exec i st = .next t) : NormalForm t.v := by
  obtain hsame | h60 := (exec_frame h).v
  · rw [hsame]
    exact hv
  · rw [eq_ldv_of_codeIn h60] at h
    obtain ha | ha := Nat.lt_or_ge (st.ea (bField i) (nField i)).toNat 512
    · rw [exec_ldv_valid _ _ _ ha] at h
      cases h
      exact sext21_normal _
    · rw [exec_invalid_address rfl ha] at h
      cases h
      exact hv

/-! ### The state an order starts from -/

/-- The fetch and the modifier leave C[20] at 0 (R28, R114, D33). -/
theorem beginOrder_c_top (st : State) (w : Word) : (st.beginOrder w).c.getLsbD 20 = false := by
  cases hpm : st.pm with
  | none =>
    rw [beginOrder_c_of_pm_none hpm]
    exact BitVec.getLsbD_of_ge w 20 (by decide)
  | some x =>
    rw [beginOrder_c_of_pm_some hpm]
    simp only [BitVec.getLsbD_append]
    simp

/-- The status save leaves the status cleared and the one to restore as it stood (R115). -/
theorem beginOrder_statusCleared (h : StatusConsistent st) (w : Word) : StatusCleared (st.beginOrder w) := by
  rw [State.beginOrder_eq]
  exact ⟨rfl, rfl, rfl, h⟩

/-! ### The three kinds of step -/

/-- The counter check puts Absolute over what STOP held and keeps the flags (R112). -/
theorem inv_raiseStop_absolute (h : Inv st) : Inv (st.raiseStop .absolute) where
  memory := h.memory
  status := by
    obtain ⟨_, _, hflags⟩ := h.status
    exact ⟨nofun, fun _ => .inr rfl, hflags⟩
  control := h.control
  inspection := h.inspection
  saved := h.saved
  hook := h.hook

/-- What any order leaves has the invariant once the step's inner state is emptied (R40). -/
theorem inv_endOrder {i : Instr} {w : Word} (h : Inv st) (hexec : exec i (st.beginOrder w) = .next t) :
    Inv t.endOrder := by
  have hm : (st.beginOrder w).main.wf := by
    rw [State.beginOrder_eq]
    exact h.memory
  have hv : NormalForm (st.beginOrder w).v := by
    rw [State.beginOrder_eq]
    exact h.inspection
  have hmain : t.main.wf := exec_main_wf hm hexec
  have hstatus : StatusConsistent t := exec_statusConsistent (beginOrder_statusCleared h.status w) hexec
  have hc : t.c.getLsbD 20 = false := by
    rw [(exec_frame hexec).c]
    exact beginOrder_c_top st w
  have hnormal : NormalForm t.v := exec_v_normal hv hexec
  exact ⟨hmain, hstatus, hc, hnormal, rfl, rfl⟩

end

end Sys2Proof.Machine

/-! ## The statement on the invariant -/

section
open Sys2Proof Sys2Proof.Machine

/-- Settles O11: the gate keeps the state, the counter check keeps the invariant, and so does any order between the
fetch and the end of the step. -/
theorem stepKeepsTheInvariant : Obligations.StepKeepsTheInvariant := by
  intro st t hinv h
  obtain ⟨_, rfl⟩ | ⟨_, rfl⟩ | ⟨w, u, _, hu, rfl⟩ := step_cases h
  · exact hinv
  · exact inv_raiseStop_absolute hinv
  · exact inv_endOrder hinv hu

end
